-- ==== Sys2Proof/Word.lean ====
section
/-! DEFINITION. The word types of the block and the byte count of a vector (`00_scope.md` R11, R12). -/

namespace Sys2Proof

/-- A byte of a buffer or of a USB stream. -/
abbrev Byte := BitVec 8

/-- A 16-bit quantity: the MPSSE divisor, a USB identifier. -/
abbrev Half := BitVec 16

/-- A 32-bit register or payload word (`REG_BITS`, R10). -/
abbrev Word := BitVec 32

/-- A bit vector in wire order: index 0 is the first bit on the wire, and bit 0 of a register (R12). -/
abbrev Bits := List Bool

/-- `ceil(n/8)`, the number of bytes that hold `n` bits (R11, R12). -/
def bytesFor (n : Nat) : Nat := (n + 7) / 8

/-- `CHUNK_BITS`: the most bits the MMIO sequencer clocks per start strobe (R10). -/
def chunkBits : Nat := 32

end Sys2Proof
end

