-- ==== Sys2Proof/Syntax.lean ====
section
/-! DEFINITION. The operations of the block: one constructor of `Instr` for each row of
spec/opcode_table.json (`30_encoding.md` R90). -/

namespace Sys2Proof

/-- The sixteen states of the TAP controller (`10_state.md` R36). -/
inductive TapState where
  | testLogicReset | runTestIdle
  | selectDrScan | captureDr | shiftDr | exit1Dr | pauseDr | exit2Dr | updateDr
  | selectIrScan | captureIr | shiftIr | exit1Ir | pauseIr | exit2Ir | updateIr
deriving DecidableEq, Repr, Inhabited

/-- Which USB interface the USB backend claims (`00_scope.md` R10, `30_encoding.md` R91). The spec gives these
operands no widths: 16 bits for the vendor and the product number is PRESUMED, a serial as bytes and an interface as a
number are DESIGN CHOICE (log entry 37). -/
structure UsbAddress where
  vid : Half
  pid : Half
  serial : List Byte
  interface : Nat
deriving DecidableEq, Repr

/-- Operands of construction, format T0 (`30_encoding.md` R91): the backend and its handle parameters. -/
inductive OpenParams where
  | mmio (uioIndex : Nat)
  | usb (address : UsbAddress)
deriving DecidableEq, Repr

/-- The operations, in the table's order. A J.TCK row carries the cycle's TMS and TDI bits; an MPSSE shift
command carries its sampling edge `e` (`false` rising, `true` falling). -/
inductive Instr where
  | tOpen (p : OpenParams)
  | tShift (n : Int) (buf : List Byte)
  | tSetClockDivisor (v : Int)
  | tSetTimingParam (v : Int)
  | jTckTestLogicReset (tms tdi : Bool)
  | jTckRunTestIdle (tms tdi : Bool)
  | jTckSelectDrScan (tms tdi : Bool)
  | jTckCaptureDr (tms tdi : Bool)
  | jTckShiftDr (tms tdi : Bool)
  | jTckExit1Dr (tms tdi : Bool)
  | jTckPauseDr (tms tdi : Bool)
  | jTckExit2Dr (tms tdi : Bool)
  | jTckUpdateDr (tms tdi : Bool)
  | jTckSelectIrScan (tms tdi : Bool)
  | jTckCaptureIr (tms tdi : Bool)
  | jTckShiftIr (tms tdi : Bool)
  | jTckExit1Ir (tms tdi : Bool)
  | jTckPauseIr (tms tdi : Bool)
  | jTckExit2Ir (tms tdi : Bool)
  | jTckUpdateIr (tms tdi : Bool)
  | jIdcode
  | jBypass
  | mWrLength (v : Word)
  | mWrTms (v : Word)
  | mWrTdi (v : Word)
  | mWrStart
  | mRdStatus
  | mRdTdo
  | mWrClkdiv (v : Word)
  | mWrDelay (v : Word)
  | uByteShift (e : Bool) (d : List Byte)
  | uBitShift (e : Bool) (r : Nat) (d : Byte)
  | uTmsShift (e : Bool) (r : Nat) (b : Byte)
  | uSetDivisor (div : Half)
  | uFlush
  | pProbeIdcode
  | pScanChain
  | pDetect
  | pProbeBypass (value : Word)
  | pProbeBypassVec (values : List Word)
deriving DecidableEq, Repr

end Sys2Proof
end

