-- ==== Sys2Proof/Config.lean ====
section
/-! DEFINITION. The parameters of the block (`00_scope.md` R10), their reset-time defaults, and the free values
(the `draw` of R13): constants without a body, so that nothing can be proved of any one of them. -/

namespace Sys2Proof

/-- What is known of a device: a DeviceCatalog answer together with its idcode (`10_state.md` R42,
`30_encoding.md` R109). -/
structure DeviceIdentity where
  idcode : Word
  irLength : Nat
  idCommand : Nat
  description : String
deriving DecidableEq, Repr

/-- The parameters of R10 that belong to the block and to its host software. A parameter that R10 marks OPEN
stands here as a field: a statement about every state holds for every value of it. `callerMaxBits` is the caller's own
limit on the length of a shift, `none` for a caller without one (R139, log entry 39). -/
structure Config where
  regLength : Nat
  regTms : Nat
  regTdi : Nat
  regTdo : Nat
  regCtrl : Nat
  regStatus : Nat
  regClkdiv : Nat
  regDelay : Nat
  regionBytes : Nat
  ctrlStart : Word
  statusBusy : Word
  divMax : Nat
  delayMax : Nat
  baseClockHz : Nat
  pollLimit : Nat
  opBytesRise : Byte
  opBytesFall : Byte
  opBitsRise : Byte
  opBitsFall : Byte
  opTmsRise : Byte
  opTmsFall : Byte
  opSetDiv : Byte
  cmdBudgetBytes : Nat
  descBudget : Nat
  usbDivMax : Nat
  usbBaseClockHz : Nat
  callerMaxBits : Option Nat
  catalog : List DeviceIdentity
deriving DecidableEq, Repr

/-- The values at `State.reset`: R10's defaults (general knowledge of R102 and R77, PRESUMED, log entry 10);
DESIGN CHOICE where R10 gives no default (log entries 11 and 36). -/
def Config.default : Config where
  regLength := 0x00
  regTms := 0x04
  regTdi := 0x08
  regTdo := 0x0C
  regCtrl := 0x10
  regStatus := 0x10
  regClkdiv := 0x14
  regDelay := 0x18
  regionBytes := 0x20
  ctrlStart := 1
  statusBusy := 1
  divMax := 255
  delayMax := 15
  baseClockHz := 100000000
  pollLimit := 0
  opBytesRise := 0x39
  opBytesFall := 0x3D
  opBitsRise := 0x3B
  opBitsFall := 0x3F
  opTmsRise := 0x6B
  opTmsFall := 0x6F
  opSetDiv := 0x86
  cmdBudgetBytes := 4096
  descBudget := 4096
  usbDivMax := 0xFFFF
  usbBaseClockHz := 60000000
  callerMaxBits := none
  catalog := [{ idcode := 0x0362D093, irLength := 6, idCommand := 0x09, description := "example" }]

/-- `OP_BYTES[e]` (R102, `43_mpsse_assembler.md` R221). -/
def Config.opBytes (c : Config) (e : Bool) : Byte := if e then c.opBytesFall else c.opBytesRise

/-- `OP_BITS[e]` (R102, R221). -/
def Config.opBits (c : Config) (e : Bool) : Byte := if e then c.opBitsFall else c.opBitsRise

/-- `OP_TMS[e]` (R102, R221). -/
def Config.opTms (c : Config) (e : Bool) : Byte := if e then c.opTmsFall else c.opTmsRise

/-- The seven command bytes (R102). -/
def Config.commandBytes (c : Config) : List Byte :=
  [c.opBytesRise, c.opBytesFall, c.opBitsRise, c.opBitsFall, c.opTmsRise, c.opTmsFall, c.opSetDiv]

/-- The register-offset table (`20_memory.md` R77). -/
def Config.offsets (c : Config) : List Nat :=
  [c.regLength, c.regTms, c.regTdi, c.regTdo, c.regCtrl, c.regStatus, c.regClkdiv, c.regDelay]

/-- The open-time check of one offset (`20_memory.md` R66, `40_transport_contract.md` R130). -/
def Config.offsetOk (c : Config) (o : Nat) : Bool := decide (o % 4 = 0) && decide (o + 4 ≤ c.regionBytes)

/-- The register-offset table passes its open-time validation (R130). -/
def Config.tableOk (c : Config) : Bool := c.offsets.all c.offsetOk

/-- The sense the spec gives the parameters: offsets in the window, aligned and distinct (only CTRL and STATUS,
which differ in direction, may share one: R25, R77); the seven command bytes pairwise distinct (R102); the budgets
at least 4 and 1 (R235); a busy mask that can show busy (R25); bounds that fit their registers (R96, R101). That the
window is at most 2^32 bytes is the model's DESIGN CHOICE (log entry 40): the spec leaves REGION_BYTES and the width of an
offset open. -/
def Config.wellFormed (c : Config) : Bool :=
  c.tableOk && decide (c.regionBytes ≤ 2 ^ 32)
  && decide [c.regLength, c.regTms, c.regTdi, c.regTdo, c.regCtrl, c.regClkdiv, c.regDelay].Nodup
  && decide [c.regLength, c.regTms, c.regTdi, c.regTdo, c.regStatus, c.regClkdiv, c.regDelay].Nodup
  && decide c.commandBytes.Nodup
  && decide (4 ≤ c.cmdBudgetBytes) && decide (1 ≤ c.descBudget)
  && decide (c.statusBusy ≠ 0)
  && decide (c.divMax < 2 ^ 32) && decide (c.delayMax < 2 ^ 32) && decide (c.usbDivMax < 2 ^ 16)

/-- The defaults make sense. -/
theorem Config.default_wellFormed : Config.default.wellFormed = true := by decide

/-- The TCK frequency of a divisor over a base clock, truncated (`60_exceptions.md` R323, R324). -/
def tckHz (baseClockHz div : Nat) : Nat := baseClockHz / ((div + 1) * 2)

/-- The registers of a TAP that an invalid operating point, or being never reset, leaves unspecified
(`10_state.md` R36 to R39, R48). -/
structure TapRegs where
  state : TapState
  instr : Bits
  irSr : Bits
  drSr : Bits
deriving DecidableEq, Repr, Inhabited

/-- Free value (log entry 5): the bit an engine samples while nothing drives TDO, or at an invalid operating
point (`41_tap_fsm.md` R169, `10_state.md` R48). Indexed by the draw and, in a chain, by the TAP it goes to. -/
opaque Config.freeBit (draw place : Nat) : Bool

/-- Free value (log entry 5): an unspecified 32-bit register (`10_state.md` R47), what a register reads back as
(`93_implementation_defined.md` U37), or a random payload word of a calibrator (`45_host_calibration.md` R284). -/
opaque Config.freeWord (draw place : Nat) : Word

/-- Free value (log entry 5): the registers of a TAP in an unspecified state (`10_state.md` R47, R48). -/
opaque Config.freeTap (draw place : Nat) : TapRegs

/-- Free value (log entries 5 and 16): the bits of STATUS that the spec does not describe, at one read (R25). -/
opaque Config.freeStatus (read : Nat) : Word

/-- Free value (log entries 5 and 26): the `validPointCount` of a USB calibration point (R295, U35). -/
opaque Config.freeCount (draw : Nat) : Nat

end Sys2Proof
end

