-- ==== Sys2Proof/WellFormed.lean ====
section
/-! DEFINITION. Which operations are well formed: the operand ranges of the formats (`30_encoding.md`), and the
ranges of the integers of the model's own call encoding (log entry 28). -/

namespace Sys2Proof

/-- An integer operand of a call fits the call encoding's 64 bits (log entry 28). -/
def intFits (v : Int) : Bool := decide (-(2 ^ 63) ≤ v ∧ v < 2 ^ 63)

/-- Construction operands fit the call encoding (log entry 28). -/
def OpenParams.wellFormed : OpenParams → Bool
  | .mmio i => decide (i < 2 ^ 32)
  | .usb a => decide (a.interface < 2 ^ 32) && decide (a.serial.length < 2 ^ 32)

/-- The operand checks: R92 (length and buffer of a shift), R98 (1 to 65536 data bytes), R99 (1 to 8 bits),
R100 (1 to 7 bits), R268 (at least one payload word). -/
def Instr.wellFormed : Instr → Bool
  | .tOpen p => p.wellFormed
  | .tShift n buf => decide (0 ≤ n ∧ n < 2 ^ 63) && decide (buf.length = 2 * bytesFor n.toNat)
  | .tSetClockDivisor v => intFits v
  | .tSetTimingParam v => intFits v
  | .uByteShift _ d => decide (1 ≤ d.length ∧ d.length ≤ 65536)
  | .uBitShift _ r _ => decide (1 ≤ r ∧ r ≤ 8)
  | .uTmsShift _ r _ => decide (1 ≤ r ∧ r ≤ 7)
  | .pProbeBypassVec vs => decide (1 ≤ vs.length ∧ vs.length < 2 ^ 32)
  | .jTckTestLogicReset _ _ | .jTckRunTestIdle _ _ | .jTckSelectDrScan _ _ | .jTckCaptureDr _ _
  | .jTckShiftDr _ _ | .jTckExit1Dr _ _ | .jTckPauseDr _ _ | .jTckExit2Dr _ _ | .jTckUpdateDr _ _
  | .jTckSelectIrScan _ _ | .jTckCaptureIr _ _ | .jTckShiftIr _ _ | .jTckExit1Ir _ _ | .jTckPauseIr _ _
  | .jTckExit2Ir _ _ | .jTckUpdateIr _ _ | .jIdcode | .jBypass => true
  | .mWrLength _ | .mWrTms _ | .mWrTdi _ | .mWrStart | .mRdStatus | .mRdTdo | .mWrClkdiv _ | .mWrDelay _ => true
  | .uSetDivisor _ | .uFlush | .pProbeIdcode | .pScanChain | .pDetect | .pProbeBypass _ => true

end Sys2Proof
end

