-- ==== Sys2Proof/Decode.lean ====
section
/-! DEFINITION. Decoding and encoding. Two byte formats: the MPSSE command stream (`30_encoding.md` R97 to R102),
which is the spec's, and the caller's operations as bytes (log entry 1), which is the model's own: a layer tag, then
the operands of the format of that layer. Decoding is total and rejects by name. -/

namespace Sys2Proof

/-- Why bytes are no operation. -/
inductive DecodeError where
  /-- The tag byte names no operation: the byte begins no call. -/
  | unknownCall
  /-- A shift request with a negative length (R132). -/
  | shiftRequest
  /-- A bypass probe with no payload word (R268). -/
  | payload
  /-- An operand of another operation outside the range its format admits (`Instr.wellFormed`); no bytes give one. -/
  | operandRange
  /-- A command byte other than the seven of R102 (R104). -/
  | unknownCommandByte
  /-- A length byte that gives no legal bit count (R99, R100; its rejection is DESIGN CHOICE, log entry 43). -/
  | bitCount
  /-- An MMIO access at an offset that is not a multiple of 4 (R66, R104). -/
  | misalignedOffset
  /-- An MMIO access outside the mapped window (R66, R104). -/
  | outsideWindow
  /-- An MMIO access at an offset the table does not name (R77). -/
  | unnamedOffset
  /-- A write of TDO or STATUS (U37). -/
  | undescribedWrite
  /-- A write of CTRL of another value than CTRL_START (R25, R96). -/
  | undescribedStrobe
  /-- A read of a register other than STATUS and TDO: no operation of the table, but an access (U37,
  `decodeReadBack`). -/
  | readBack
deriving DecidableEq, Repr

/-- What a decoder answers: an operation and the bytes after it, a prefix of an operation, or a rejection. -/
inductive Decoded where
  | ok (i : Instr) (rest : List Byte)
  | incomplete
  | bad (why : DecodeError)
deriving DecidableEq, Repr

/-! ## Integers in little-endian bytes (R98, R101, R106(a)) -/

/-- The `k` low bytes of a number, low byte first. -/
def leBytes : Nat → Nat → List Byte
  | 0, _ => []
  | k + 1, x => BitVec.ofNat 8 x :: leBytes k (x / 256)

/-- The number that bytes hold, low byte first (R61, R101). -/
def natOfBytes : List Byte → Nat
  | [] => 0
  | b :: bs => b.toNat + 256 * natOfBytes bs

/-- The first `k` bytes and the rest, if there are `k` (no bytes are consumed otherwise). -/
def takeBytes : Nat → List Byte → Option (List Byte × List Byte)
  | 0, bs => some ([], bs)
  | _ + 1, [] => none
  | k + 1, b :: bs =>
    match takeBytes k bs with
    | none => none
    | some (xs, rest) => some (b :: xs, rest)

/-- Groups `4` bytes at a time into words; `n` words. -/
def takeWords : Nat → List Byte → Option (List Word × List Byte)
  | 0, bs => some ([], bs)
  | n + 1, bs =>
    match takeBytes 4 bs with
    | none => none
    | some (w, rest) =>
      match takeWords n rest with
      | none => none
      | some (ws, rest') => some (BitVec.ofNat 32 (natOfBytes w) :: ws, rest')

/-- The bytes of words, each low byte first. -/
def wordBytes (ws : List Word) : List Byte := ws.flatMap fun w => leBytes 4 w.toNat

/-- A signed operand as 64 bits, low byte first (log entry 28). -/
def intBytes (v : Int) : List Byte := leBytes 8 (BitVec.ofInt 64 v).toNat

/-- The signed number that eight bytes hold (log entry 28). -/
def intOfBytes (bs : List Byte) : Int := (BitVec.ofNat 64 (natOfBytes bs)).toInt

/-! ## The MPSSE command stream (R97 to R102) -/

/-- One command at the head of the adapter's stream (R97): the command byte, then what its format fixes. That a length
byte of 8 or more in a bit-shift, or of 7 or more in a TMS-shift, is rejected is DESIGN CHOICE (log entry 43): R99 and
R100 do not admit it, and the spec does not say what the adapter does with it. -/
def decodeCommand (c : Config) : List Byte → Decoded
  | [] => .incomplete
  | op :: bs =>
    if op = c.opBytesRise ∨ op = c.opBytesFall then
      match bs with
      | lo :: hi :: bs' =>
        match takeBytes (lo.toNat + 256 * hi.toNat + 1) bs' with
        | none => .incomplete
        | some (d, rest) => .ok (.uByteShift (decide (op = c.opBytesFall)) d) rest
      | _ => .incomplete
    else if op = c.opBitsRise ∨ op = c.opBitsFall then
      match bs with
      | len :: d :: rest =>
        if len.toNat < 8 then .ok (.uBitShift (decide (op = c.opBitsFall)) (len.toNat + 1) d) rest
        else .bad .bitCount
      | _ => .incomplete
    else if op = c.opTmsRise ∨ op = c.opTmsFall then
      match bs with
      | len :: b :: rest =>
        if len.toNat < 7 then .ok (.uTmsShift (decide (op = c.opTmsFall)) (len.toNat + 1) b) rest
        else .bad .bitCount
      | _ => .incomplete
    else if op = c.opSetDiv then
      match bs with
      | lo :: hi :: rest => .ok (.uSetDivisor (BitVec.ofNat 16 (lo.toNat + 256 * hi.toNat))) rest
      | _ => .incomplete
    else .bad .unknownCommandByte

/-- The bytes of a command: U1 (R98), U2 (R99, R100), U3 (R101). The empty list for an operation that is no
command of the adapter. -/
def encodeCommand (c : Config) : Instr → List Byte
  | .uByteShift e d => c.opBytes e :: (leBytes 2 (d.length - 1) ++ d)
  | .uBitShift e r d => [c.opBits e, BitVec.ofNat 8 (r - 1), d]
  | .uTmsShift e r b => [c.opTms e, BitVec.ofNat 8 (r - 1), b]
  | .uSetDivisor div => c.opSetDiv :: leBytes 2 div.toNat
  | _ => []

/-! ## TCK cycles (format J1, R94) -/

/-- The informative state code of R175, used by the table's J.TCK patterns (no rule depends on it). -/
def TapState.code : TapState → Nat
  | .exit2Dr => 0x0 | .exit1Dr => 0x1 | .shiftDr => 0x2 | .pauseDr => 0x3
  | .selectIrScan => 0x4 | .updateDr => 0x5 | .captureDr => 0x6 | .selectDrScan => 0x7
  | .exit2Ir => 0x8 | .exit1Ir => 0x9 | .shiftIr => 0xA | .pauseIr => 0xB
  | .runTestIdle => 0xC | .updateIr => 0xD | .captureIr => 0xE | .testLogicReset => 0xF

/-- The operation of a J1 word: state code in bits 5..2, TMS in bit 1, TDI in bit 0 (the table's patterns). -/
def decodeTck (w : Nat) : Option Instr :=
  let tms := w.testBit 1
  let tdi := w.testBit 0
  match w / 4 with
  | 0x0 => some (.jTckExit2Dr tms tdi) | 0x1 => some (.jTckExit1Dr tms tdi)
  | 0x2 => some (.jTckShiftDr tms tdi) | 0x3 => some (.jTckPauseDr tms tdi)
  | 0x4 => some (.jTckSelectIrScan tms tdi) | 0x5 => some (.jTckUpdateDr tms tdi)
  | 0x6 => some (.jTckCaptureDr tms tdi) | 0x7 => some (.jTckSelectDrScan tms tdi)
  | 0x8 => some (.jTckExit2Ir tms tdi) | 0x9 => some (.jTckExit1Ir tms tdi)
  | 0xA => some (.jTckShiftIr tms tdi) | 0xB => some (.jTckPauseIr tms tdi)
  | 0xC => some (.jTckRunTestIdle tms tdi) | 0xD => some (.jTckUpdateIr tms tdi)
  | 0xE => some (.jTckCaptureIr tms tdi) | 0xF => some (.jTckTestLogicReset tms tdi)
  | _ => none

/-- The J1 word of a cycle in a state. -/
def tckWord (st : TapState) (tms tdi : Bool) : Byte :=
  BitVec.ofNat 8 (4 * st.code + 2 * tms.toNat + tdi.toNat)

/-- The state that selects a J.TCK operation, with the cycle's TMS and TDI (R94); none for another operation. -/
def Instr.tck? : Instr → Option (TapState × Bool × Bool)
  | .jTckTestLogicReset m d => some (.testLogicReset, m, d)
  | .jTckRunTestIdle m d => some (.runTestIdle, m, d)
  | .jTckSelectDrScan m d => some (.selectDrScan, m, d)
  | .jTckCaptureDr m d => some (.captureDr, m, d)
  | .jTckShiftDr m d => some (.shiftDr, m, d)
  | .jTckExit1Dr m d => some (.exit1Dr, m, d)
  | .jTckPauseDr m d => some (.pauseDr, m, d)
  | .jTckExit2Dr m d => some (.exit2Dr, m, d)
  | .jTckUpdateDr m d => some (.updateDr, m, d)
  | .jTckSelectIrScan m d => some (.selectIrScan, m, d)
  | .jTckCaptureIr m d => some (.captureIr, m, d)
  | .jTckShiftIr m d => some (.shiftIr, m, d)
  | .jTckExit1Ir m d => some (.exit1Ir, m, d)
  | .jTckPauseIr m d => some (.pauseIr, m, d)
  | .jTckExit2Ir m d => some (.exit2Ir, m, d)
  | .jTckUpdateIr m d => some (.updateIr, m, d)
  | _ => none

/-! ## MMIO accesses (format M1, R96) -/

/-- An access at a byte offset of the window: direction byte 0 for a write, any other for a read, then the 32-bit value
of a write. The offset and the direction are the whole opcode (R96); a write of CTRL is the start strobe with the value
CTRL_START (R195); the checks are R66's and R104's. -/
def decodeAccess (c : Config) (off : Nat) (dir : Byte) (bs : List Byte) : Decoded :=
  let withValue (f : Word → Instr) : Decoded :=
    match takeBytes 4 bs with
    | none => .incomplete
    | some (v, rest) => .ok (f (BitVec.ofNat 32 (natOfBytes v))) rest
  if off % 4 ≠ 0 then .bad .misalignedOffset
  else if c.regionBytes < off + 4 then .bad .outsideWindow
  else if dir = 0 then
    if off = c.regLength then withValue .mWrLength
    else if off = c.regTms then withValue .mWrTms
    else if off = c.regTdi then withValue .mWrTdi
    else if off = c.regCtrl then
      match takeBytes 4 bs with
      | none => .incomplete
      | some (v, rest) =>
        if BitVec.ofNat 32 (natOfBytes v) = c.ctrlStart then .ok .mWrStart rest else .bad .undescribedStrobe
    else if off = c.regClkdiv then withValue .mWrClkdiv
    else if off = c.regDelay then withValue .mWrDelay
    else if off ∈ c.offsets then .bad .undescribedWrite
    else .bad .unnamedOffset
  else if off = c.regStatus then .ok .mRdStatus bs
  else if off = c.regTdo then .ok .mRdTdo bs
  else if off ∈ c.offsets then .bad .readBack
  else .bad .unnamedOffset

/-- The bytes of an access: four bytes of offset, the direction, the value. The width of the offset is the model's DESIGN
CHOICE (log entry 40): R96 and R77 give none. -/
def accessBytes (off : Nat) (dir : Byte) (value : List Byte) : List Byte := leBytes 4 off ++ dir :: value

/-! ## The caller's operations (log entry 1) -/

/-- Tag bytes of a call, one for each format and each operation without operand bytes (log entry 1). -/
def tagOpen : Byte := 0x01
/-- Tag of T.SHIFT (log entry 1). -/
def tagShift : Byte := 0x02
/-- Tag of T.SET_CLOCK_DIVISOR (log entry 1). -/
def tagSetDiv : Byte := 0x03
/-- Tag of T.SET_TIMING_PARAM (log entry 1). -/
def tagSetTiming : Byte := 0x04
/-- Tag of a J1 word (log entry 1). -/
def tagTck : Byte := 0x05
/-- Tag of J.IDCODE (log entry 1). -/
def tagIdcode : Byte := 0x06
/-- Tag of J.BYPASS (log entry 1). -/
def tagBypass : Byte := 0x07
/-- Tag of an MMIO access (log entry 1). -/
def tagMmio : Byte := 0x08
/-- Tag of an MPSSE command (log entry 1). -/
def tagCommand : Byte := 0x09
/-- Tag of U.FLUSH (log entry 1). -/
def tagFlush : Byte := 0x0A
/-- Tag of P.PROBE_IDCODE (log entry 1). -/
def tagProbeIdcode : Byte := 0x0B
/-- Tag of P.SCAN_CHAIN (log entry 1). -/
def tagScanChain : Byte := 0x0C
/-- Tag of P.DETECT (log entry 1). -/
def tagDetect : Byte := 0x0D
/-- Tag of P.PROBE_BYPASS (log entry 1). -/
def tagProbeBypass : Byte := 0x0E
/-- Tag of P.PROBE_BYPASS_VEC (log entry 1). -/
def tagProbeBypassVec : Byte := 0x0F

/-- Why operands read from bytes are not well formed: a shift request (R132), a bypass probe without payload (R268). -/
def Instr.fault : Instr → DecodeError
  | .tShift _ _ => .shiftRequest
  | .pProbeBypassVec _ => .payload
  | _ => .operandRange

/-- Rejects what is not well formed, so that a decoder answers only well-formed operations. -/
def Decoded.checked : Decoded → Decoded
  | .ok i rest => if i.wellFormed then .ok i rest else .bad i.fault
  | d => d

/-- Construction operands: kind byte 0 with a UIO index, any other with a USB address (R91). -/
def decodeOpen : List Byte → Decoded
  | [] => .incomplete
  | kind :: bs =>
    if kind = 0 then
      match takeBytes 4 bs with
      | none => .incomplete
      | some (i, rest) => .ok (.tOpen (.mmio (natOfBytes i))) rest
    else
      match takeBytes 12 bs with
      | none => .incomplete
      | some (h, rest) =>
        match takeBytes (natOfBytes (h.drop 8)) rest with
        | none => .incomplete
        | some (serial, rest') =>
          .ok (.tOpen (.usb { vid := BitVec.ofNat 16 (natOfBytes (h.take 2)),
                              pid := BitVec.ofNat 16 (natOfBytes ((h.drop 2).take 2)),
                              serial := serial,
                              interface := natOfBytes ((h.drop 4).take 4) })) rest'

/-- The bytes of construction operands. -/
def openBytes : OpenParams → List Byte
  | .mmio i => 0 :: leBytes 4 i
  | .usb a =>
    1 :: (leBytes 2 a.vid.toNat ++ leBytes 2 a.pid.toNat ++ leBytes 4 a.interface
      ++ leBytes 4 a.serial.length ++ a.serial)

/-- The shift request T1 (R92): the bit length, then the TMS half and the TDI half. -/
def decodeShift (bs : List Byte) : Decoded :=
  match takeBytes 8 bs with
  | none => .incomplete
  | some (n, rest) =>
    let len := intOfBytes n
    match takeBytes (2 * bytesFor len.toNat) rest with
    | none => .incomplete
    | some (buf, rest') => .ok (.tShift len buf) rest'

/-- A signed operand (R93). -/
def decodeInt (f : Int → Instr) (bs : List Byte) : Decoded :=
  match takeBytes 8 bs with
  | none => .incomplete
  | some (v, rest) => .ok (f (intOfBytes v)) rest

/-- A J1 word: the six low bits of one byte. -/
def decodeTckCall : List Byte → Decoded
  | [] => .incomplete
  | w :: rest =>
    match decodeTck (w.toNat % 64) with
    | none => .bad .operandRange
    | some i => .ok i rest

/-- An access: four bytes of offset and the direction byte. -/
def decodeAccessCall (c : Config) (bs : List Byte) : Decoded :=
  match takeBytes 5 bs with
  | none => .incomplete
  | some (h, rest) =>
    match h with
    | [b0, b1, b2, b3, dir] => decodeAccess c (natOfBytes [b0, b1, b2, b3]) dir rest
    | _ => .incomplete

/-- A read of a register that the table has no operation for (U37): what follows the call. It begins with the tag of an
access, as a call of the table does. -/
def decodeReadBack (c : Config) : List Byte → Option (List Byte)
  | [] => none
  | t :: bs =>
    if t = tagMmio then
      match takeBytes 5 bs with
      | none => none
      | some (_, rest) => if decodeAccessCall c bs = .bad .readBack then some rest else none
    else none

/-- One payload word (R267). -/
def decodeBypass (bs : List Byte) : Decoded :=
  match takeBytes 4 bs with
  | none => .incomplete
  | some (v, rest) => .ok (.pProbeBypass (BitVec.ofNat 32 (natOfBytes v))) rest

/-- A count and that many payload words (R268). -/
def decodeBypassVec (bs : List Byte) : Decoded :=
  match takeBytes 4 bs with
  | none => .incomplete
  | some (n, rest) =>
    match takeWords (natOfBytes n) rest with
    | none => .incomplete
    | some (ws, rest') => .ok (.pProbeBypassVec ws) rest'

/-- The operation of a call whose tag is `t`, from the bytes after the tag. -/
def decodeTagged (c : Config) (t : Byte) (bs : List Byte) : Decoded :=
  if t = tagOpen then decodeOpen bs
  else if t = tagShift then decodeShift bs
  else if t = tagSetDiv then decodeInt .tSetClockDivisor bs
  else if t = tagSetTiming then decodeInt .tSetTimingParam bs
  else if t = tagTck then decodeTckCall bs
  else if t = tagIdcode then .ok .jIdcode bs
  else if t = tagBypass then .ok .jBypass bs
  else if t = tagMmio then decodeAccessCall c bs
  else if t = tagCommand then decodeCommand c bs
  else if t = tagFlush then .ok .uFlush bs
  else if t = tagProbeIdcode then .ok .pProbeIdcode bs
  else if t = tagScanChain then .ok .pScanChain bs
  else if t = tagDetect then .ok .pDetect bs
  else if t = tagProbeBypass then decodeBypass bs
  else if t = tagProbeBypassVec then decodeBypassVec bs
  else .bad .unknownCall

/-- One operation at the head of the caller's bytes. -/
def decode (c : Config) : List Byte → Decoded
  | [] => .incomplete
  | t :: bs => (decodeTagged c t bs).checked

/-- The bytes of an operation, as the caller issues it. -/
def encode (c : Config) : Instr → List Byte
  | .tOpen p => tagOpen :: openBytes p
  | .tShift n buf => tagShift :: (intBytes n ++ buf)
  | .tSetClockDivisor v => tagSetDiv :: intBytes v
  | .tSetTimingParam v => tagSetTiming :: intBytes v
  | .jTckTestLogicReset m d => [tagTck, tckWord .testLogicReset m d]
  | .jTckRunTestIdle m d => [tagTck, tckWord .runTestIdle m d]
  | .jTckSelectDrScan m d => [tagTck, tckWord .selectDrScan m d]
  | .jTckCaptureDr m d => [tagTck, tckWord .captureDr m d]
  | .jTckShiftDr m d => [tagTck, tckWord .shiftDr m d]
  | .jTckExit1Dr m d => [tagTck, tckWord .exit1Dr m d]
  | .jTckPauseDr m d => [tagTck, tckWord .pauseDr m d]
  | .jTckExit2Dr m d => [tagTck, tckWord .exit2Dr m d]
  | .jTckUpdateDr m d => [tagTck, tckWord .updateDr m d]
  | .jTckSelectIrScan m d => [tagTck, tckWord .selectIrScan m d]
  | .jTckCaptureIr m d => [tagTck, tckWord .captureIr m d]
  | .jTckShiftIr m d => [tagTck, tckWord .shiftIr m d]
  | .jTckExit1Ir m d => [tagTck, tckWord .exit1Ir m d]
  | .jTckPauseIr m d => [tagTck, tckWord .pauseIr m d]
  | .jTckExit2Ir m d => [tagTck, tckWord .exit2Ir m d]
  | .jTckUpdateIr m d => [tagTck, tckWord .updateIr m d]
  | .jIdcode => [tagIdcode]
  | .jBypass => [tagBypass]
  | .mWrLength v => tagMmio :: accessBytes c.regLength 0 (leBytes 4 v.toNat)
  | .mWrTms v => tagMmio :: accessBytes c.regTms 0 (leBytes 4 v.toNat)
  | .mWrTdi v => tagMmio :: accessBytes c.regTdi 0 (leBytes 4 v.toNat)
  | .mWrStart => tagMmio :: accessBytes c.regCtrl 0 (leBytes 4 c.ctrlStart.toNat)
  | .mRdStatus => tagMmio :: accessBytes c.regStatus 1 []
  | .mRdTdo => tagMmio :: accessBytes c.regTdo 1 []
  | .mWrClkdiv v => tagMmio :: accessBytes c.regClkdiv 0 (leBytes 4 v.toNat)
  | .mWrDelay v => tagMmio :: accessBytes c.regDelay 0 (leBytes 4 v.toNat)
  | .uByteShift e d => tagCommand :: encodeCommand c (.uByteShift e d)
  | .uBitShift e r d => tagCommand :: encodeCommand c (.uBitShift e r d)
  | .uTmsShift e r b => tagCommand :: encodeCommand c (.uTmsShift e r b)
  | .uSetDivisor div => tagCommand :: encodeCommand c (.uSetDivisor div)
  | .uFlush => [tagFlush]
  | .pProbeIdcode => [tagProbeIdcode]
  | .pScanChain => [tagScanChain]
  | .pDetect => [tagDetect]
  | .pProbeBypass v => tagProbeBypass :: leBytes 4 v.toNat
  | .pProbeBypassVec vs => tagProbeBypassVec :: (leBytes 4 vs.length ++ wordBytes vs)

/-! ## The words of spec/opcode_table.json -/

/-- A table word as the bytes of a call (log entry 27). The table's patterns live in different spaces: an MPSSE
command byte, an MMIO offset, a six-bit J1 pattern. A word of at most 6 bits is a J1 word; else a first byte that is
one of the seven default command bytes begins a command; else one that is a default register offset is an access in
the direction of the table's first row at that offset, its value the remaining bits, but for the offset of CTRL, whose row
fixes the value CTRL_START; else, below 64, a J1 word. The bits above are zero, as many as the command's length field asks
for. -/
def tableBytes (nbits w : Nat) : List Byte :=
  let c := Config.default
  let b := w % 256
  let rest := leBytes (16 + w / 256 % 65536) (w / 256)
  if nbits ≤ 6 then [tagTck, BitVec.ofNat 8 (w % 64)]
  else if BitVec.ofNat 8 b ∈ c.commandBytes then tagCommand :: BitVec.ofNat 8 b :: rest
  else if b = c.regCtrl then tagMmio :: accessBytes b 0 (leBytes 4 c.ctrlStart.toNat)
  else if b ∈ c.offsets then tagMmio :: (leBytes 4 b ++ (if b = c.regTdo then 1 else 0) :: rest)
  else if w < 64 then [tagTck, BitVec.ofNat 8 w]
  else tagCommand :: BitVec.ofNat 8 b :: rest

/-- The operation the decoder reads from a word of the table (bit 0 the least significant of the first byte). -/
def decodeTableWord (nbits w : Nat) : Option Instr :=
  match decode Config.default (tableBytes nbits w) with
  | .ok i _ => some i
  | .incomplete => none
  | .bad _ => none

end Sys2Proof
end

