-- ==== Sys2Proof/Machine/State.lean ====
section
/-! DEFINITION. The state of the machine (`10_state.md` R20), as plain data, its value after reset, and the reasons a
step can stop. The items marked MODEL's own are no state of the spec; INVENTORY.md lists each with its log entry. -/

namespace Sys2Proof.Machine

/-- The six error kinds (`60_exceptions.md` R310, R316). -/
inductive ErrorKind where
  | transportOpenFailure
  | detectionFailure
  | calibrationEmpty
  | hardeningRejected
  | outOfRangeParameter
  | transportTimeout
deriving DecidableEq, Repr

/-- A fatal error kind ends the step (`60_exceptions.md` R320: a fatal failure ends the operation with the error as
its only outcome). -/
inductive Fault where
  /-- Raised by T.OPEN when the device cannot be opened or claimed, or the offset table fails its validation
  (R311). Safe: nothing of the spec can run after it. -/
  | transportOpenFailure
  /-- Raised by the busy-poll when POLL_LIMIT is positive and expires (R316). Safe: the spec makes the state of
  the machine unknown and the transport unusable. -/
  | transportTimeout
deriving DecidableEq, Repr

/-- The spec's `refuse` (`00_scope.md` R13): the situation has no meaning. Each is safe: the machine stops where the
spec says that no claim can be made. -/
inductive Refusal where
  /-- Raised by exec's arm of an instruction that has no meaning yet. Safe. -/
  | notModelled (mnemonic : String)
  /-- An operation before T.OPEN made a handle; raised by every operation but T.OPEN (R43). Safe. -/
  | notOpen
  /-- T.OPEN while an instance owns the hardware (R130: outside the contract). Safe. -/
  | alreadyOpen
  /-- An operation of the engine that this instance does not have (R3, R20). Safe. -/
  | engineAbsent
  /-- A register write or a start strobe while busy (R75, R353). Safe. -/
  | accessWhileBusy
  /-- A J operation while the sequencer's run has the target: its cycles are one unit (R68, R191). Safe. -/
  | targetInUse
  /-- A register access that is misaligned, outside the window, or at an offset the table does not name; raised by step
  (R66, R104, R317 (f)). Safe. -/
  | badAccess
  /-- A write of TDO or STATUS, or of a value other than CTRL_START to CTRL; raised by step (U37, R25, R96). Safe. -/
  | undescribedWrite
  /-- A USB transfer error other than a short read; raised by every host transfer (R317 (e), U22). Safe. -/
  | usbTransferError
  /-- A read of TDO while busy (R197, U6). Safe. -/
  | tdoReadWhileBusy
  /-- A start strobe with LENGTH outside 1..32 (R21, R195). Safe. -/
  | lengthOutOfRange
  /-- A shift request with a negative length or a buffer of the wrong length (R104, R132, U16). Safe. -/
  | badShiftRequest
  /-- A cycle in Capture-DR or Shift-DR under an instruction other than IDCODE and BYPASS (R172). Safe. -/
  | reservedTapInstruction
  /-- A J.TCK operation issued when another TAP state selects another operation (R94, log entry 13). Safe. -/
  | tapStateMismatch
  /-- A J operation while the loopback double stands in place of the target (R140). Safe. -/
  | noTarget
  /-- A byte of the command stream that begins no command the assembler emits (R104, U21), or a length byte that gives no
  legal bit count (DESIGN CHOICE, log entry 43). Safe. -/
  | unknownCommandByte
  /-- A probe that needs DeviceIdentity while it is absent (R270). Safe. -/
  | noIdentity
  /-- P.PROBE_BYPASS_VEC with no payload word (R268, U25). Safe. -/
  | emptyPayload
deriving DecidableEq, Repr

/-! ## The target (R36 to R41, R140) -/

/-- A TAP's constants (`00_scope.md` R10, `10_state.md` R40, R46). -/
structure TapParams where
  irLength : Nat
  idCommand : Nat
  idcodeValue : Word
  hasIdcode : Bool
  irCapture : Nat
deriving DecidableEq, Repr

/-- One TAP. A register is a bit list with bit 0 first, so that `drSr.length` is `tap.dr_len` (R39) and the head
is what TDO carries. `known` and `ones` are the MODEL's own (log entry 4): whether the TAP's state is specified yet,
and how many TMS ones in a row an unspecified TAP has seen (`41_tap_fsm.md` R151, R168). -/
structure Tap where
  par : TapParams
  known : Bool
  ones : Nat
  state : TapState
  instr : Bits
  irSr : Bits
  drSr : Bits
deriving DecidableEq, Repr

/-- The combinational function of the loopback double, by its four values `f(tms, tdi)` (R140). -/
structure LoopFn where
  f00 : Bool
  f01 : Bool
  f10 : Bool
  f11 : Bool
deriving DecidableEq, Repr

/-- What the engine's TCK, TMS, TDI and TDO are wired to: a chain of TAPs, the first next to the host's TDI
(R41, R173), or the loopback double (R140). -/
inductive Target where
  | chain (taps : List Tap)
  | loopback (f : LoopFn)
deriving DecidableEq, Repr

/-! ## The engines and the host -/

/-- The device side of the MMIO sequencer (R21 to R28). -/
structure Mmio where
  length : Word
  tms : Word
  tdi : Word
  tdo : Word
  ctrl : Word
  clkdiv : Word
  delay : Word
  busy : Bool
  count : Nat
deriving DecidableEq, Repr

/-- The driver's shadow registers (R29). -/
structure Shadow where
  len : Word
  tms : Word
  tdi : Word
deriving DecidableEq, Repr

/-- The device side of the USB adapter (R31, R35, R49), with the receive shift register `rb` of the commands'
pseudocode (`43_mpsse_assembler.md` R222 to R224, log entry 15). -/
structure Usb where
  div : Half
  tms : Bool
  rb : Byte
  cmdq : List Byte
  rspq : List Byte
deriving DecidableEq, Repr

/-- A descriptor: how to unpack one response byte (R34). -/
inductive Descriptor where
  | byteShift (pos : Nat)
  | bitShift (pos r : Nat)
  | tmsShift (pos : Nat)
deriving DecidableEq, Repr

/-- The open byte-shift run of the assembler: where its command starts in `out`, and its byte count (R231). -/
structure ByteRun where
  pos : Nat
  k : Nat
deriving DecidableEq, Repr

/-- The host side of the USB backend (R32 to R34, R50); `tmsLevel` is `none` while unknown. -/
structure UsbHost where
  edge : Bool
  tmsLevel : Option Bool
  out : List Byte
  desc : List Descriptor
  run : Option ByteRun
deriving DecidableEq, Repr

/-- Where the host thread is: able to go on, or stuck for ever in one of the two untimed waits (R14, R350, R351). -/
inductive HostPhase where
  | ready
  | stuckBusyPoll
  | stuckRead
deriving DecidableEq, Repr

/-- The host's sequencing state during a T.SHIFT (R30 (c), (d)) and the capture buffer of the call (R60 (1)). -/
structure HostSeq where
  phase : HostPhase
  byteIdx : Nat
  bitsLeft : Nat
  scan : Nat
  descIdx : Nat
  tdoBuf : List Byte
deriving DecidableEq, Repr

/-- Between calls: no cursor is live (R30, log entry 22). -/
def HostSeq.idle : HostSeq where
  phase := .ready
  byteIdx := 0
  bitsLeft := 0
  scan := 0
  descIdx := 0
  tdoBuf := []

/-- The hardware handle (R43): which engine this instance has. -/
inductive Handle where
  | mmio (uioIndex : Nat)
  | usb (address : UsbAddress)
deriving DecidableEq, Repr

/-! ## Calibration data (`45_host_calibration.md` R281) -/

/-- `clockDelayOrEdge: int|bool` (R281). -/
inductive TimingValue where
  | delay (d : Nat)
  | edge (e : Bool)
deriving DecidableEq, Repr

/-- An exact fraction, for `eyeWidthPercent` (R293, log entry 26). -/
structure Fraction where
  num : Nat
  den : Nat
deriving DecidableEq, Repr

/-- CalibrationPoint (R281). -/
structure CalibrationPoint where
  id : Nat
  clockDivisor : Nat
  clockDelayOrEdge : TimingValue
  clockFrequencyHz : Nat
  validPointCount : Nat
  eyeWidthPercent : Option Fraction
deriving DecidableEq, Repr

/-! ## The environment (MODEL's own fields, log entries 6, 8 and 9) -/

/-- A block of operating points: divisors and timing parameters between two bounds, bounds included. -/
structure PointRange where
  divLo : Nat
  divHi : Nat
  tpLo : Nat
  tpHi : Nat
deriving DecidableEq, Repr

/-- What one of the host's USB reads brings: at most so many bytes, or a transfer error (R244, R317 (e)). -/
inductive Transfer where
  | bytes (n : Nat)
  | error
deriving DecidableEq, Repr

/-- What the environment supplies: the devices that can be opened (R130); the oracle `Valid(div, tp)` of R48 as a
union of blocks, with `allValid` for every point at once; the sequencer's pace, one number of its steps before each
of the host's next looks at the busy flag, and whether it finishes once the list is used up (R191, R196, R350); the
USB deliveries, what each of the host's next reads brings, and whether the rest arrives once the list is used up (R244,
R351); whether each of the host's next USB writes is accepted, or ends in a transfer error (R317 (e)), all being accepted
once the list is used up. -/
structure Env where
  uioNodes : List Nat
  usbDevices : List UsbAddress
  allValid : Bool
  validPoints : List PointRange
  pace : List Nat
  engineAlive : Bool
  delivery : List Transfer
  usbAlive : Bool
  writes : List Bool
deriving DecidableEq, Repr

/-- What the last operation gave its caller (MODEL's own, log entry 33). -/
inductive Ret where
  | none
  | tdo (bit : Option Bool)
  | word (w : Word)
  | words (ws : List Word)
  | bytes (bs : List Byte)
deriving DecidableEq, Repr

/-! ## The state -/

/-- The state of the machine (R20). `cfg` and `env` are the parameters of R10 and R46; `ret`, `diags`, `calls`,
`draws` and `statusReads` are the MODEL's own (log entries 1, 5, 23, 33). -/
structure State where
  cfg : Config
  env : Env
  handle : Option Handle
  mmio : Mmio
  shadow : Shadow
  usb : Usb
  usbHost : UsbHost
  host : HostSeq
  target : Target
  identity : Option DeviceIdentity
  table : List CalibrationPoint
  ret : Ret
  diags : List ErrorKind
  calls : List Byte
  draws : Nat
  statusReads : Nat
deriving DecidableEq, Repr

/-- Sets the environment. -/
def State.setEnv (s : State) (v : Env) : State := { s with env := v }
/-- Sets the handle. -/
def State.setHandle (s : State) (v : Option Handle) : State := { s with handle := v }
/-- Sets the MMIO sequencer's registers. -/
def State.setMmio (s : State) (v : Mmio) : State := { s with mmio := v }
/-- Sets the shadow registers. -/
def State.setShadow (s : State) (v : Shadow) : State := { s with shadow := v }
/-- Sets the adapter's state. -/
def State.setUsb (s : State) (v : Usb) : State := { s with usb := v }
/-- Sets the host side of the USB backend. -/
def State.setUsbHost (s : State) (v : UsbHost) : State := { s with usbHost := v }
/-- Sets the host's sequencing state. -/
def State.setHost (s : State) (v : HostSeq) : State := { s with host := v }
/-- Sets the target. -/
def State.setTarget (s : State) (v : Target) : State := { s with target := v }
/-- Sets DeviceIdentity. -/
def State.setIdentity (s : State) (v : Option DeviceIdentity) : State := { s with identity := v }
/-- Sets the calibration table. -/
def State.setTable (s : State) (v : List CalibrationPoint) : State := { s with table := v }
/-- Sets the result of the operation. -/
def State.setRet (s : State) (v : Ret) : State := { s with ret := v }
/-- Sets the diagnostics emitted. -/
def State.setDiags (s : State) (v : List ErrorKind) : State := { s with diags := v }
/-- Sets the caller's remaining operations. -/
def State.setCalls (s : State) (v : List Byte) : State := { s with calls := v }
/-- Sets the index of the next free value. -/
def State.setDraws (s : State) (v : Nat) : State := { s with draws := v }
/-- Sets the index of the next free value of STATUS. -/
def State.setStatusReads (s : State) (v : Nat) : State := { s with statusReads := v }

/-! ## Reset -/

/-- The illustrative target of the spec (`44_tap_probe.md`, `93_implementation_defined.md` G17), DESIGN CHOICE of the
reset state (log entry 36). -/
def TapParams.illustrative : TapParams where
  irLength := 6
  idCommand := 0x09
  idcodeValue := 0x0362D093
  hasIdcode := true
  irCapture := 1

/-- The TAP at reset: its state is not specified yet (R36, R47), its registers hold the values of log entry 2. -/
def Tap.atReset : Tap where
  par := TapParams.illustrative
  known := false
  ones := 0
  state := .testLogicReset
  instr := [true, false, false, true, false, false]
  irSr := List.replicate 6 false
  drSr := List.replicate 32 false

/-- The environment at reset: everything can be opened, is valid and works (DESIGN CHOICE, log entries 6, 8, 9). -/
def Env.atReset : Env where
  uioNodes := [0]
  usbDevices := [{ vid := 0, pid := 0, serial := [], interface := 0 }]
  allValid := true
  validPoints := []
  pace := []
  engineAlive := true
  delivery := []
  usbAlive := true
  writes := []

/-- The machine before T.OPEN (R43: no operation but T.OPEN is defined before a handle exists). The values the spec
gives are those of R47; where it gives none, those of log entry 2. -/
def State.reset : State where
  cfg := Config.default
  env := Env.atReset
  handle := none
  mmio := { length := 1, tms := 0, tdi := 0, tdo := 0, ctrl := 0, clkdiv := 0, delay := 0, busy := false, count := 0 }
  shadow := { len := 0, tms := 0, tdi := 0 }
  usb := { div := 0, tms := false, rb := 0, cmdq := [], rspq := [] }
  usbHost := { edge := false, tmsLevel := none, out := [], desc := [], run := none }
  host := HostSeq.idle
  target := .chain [Tap.atReset]
  identity := none
  table := []
  ret := .none
  diags := []
  calls := []
  draws := 0
  statusReads := 0

end Sys2Proof.Machine
end

