-- ==== Sys2Proof/Machine/Operands.lean ====
section
/-! DEFINITION. How operands are assembled and captures aligned (`20_memory.md` R61 to R65, `30_encoding.md` R106):
bits, bytes and chunk words. -/

namespace Sys2Proof.Machine

/-! ## Bits and numbers -/

/-- The number whose bit `i` is element `i` (R11, R12). -/
def natOfBits : Bits → Nat
  | [] => 0
  | b :: bs => b.toNat + 2 * natOfBits bs

/-- The `w` low bits of a number, bit 0 first (R95: a code goes least significant bit first). -/
def bitsOfNat : Nat → Nat → Bits
  | 0, _ => []
  | w + 1, x => x.testBit 0 :: bitsOfNat w (x / 2)

/-- A register value from its bits, bit 0 first. -/
def wordOfBits (bs : Bits) : Word := BitVec.ofNat 32 (natOfBits bs)

/-- The bits of a register, bit 0 first. -/
def wordBits (w : Word) : Bits := bitsOfNat 32 w.toNat

/-- A byte from its bits, bit 0 first. -/
def byteOfBits (bs : Bits) : Byte := BitVec.ofNat 8 (natOfBits bs)

/-- The bits of a byte, bit 0 first. -/
def byteBits (b : Byte) : Bits := bitsOfNat 8 b.toNat

/-- A bit list cut or padded with zeros to a width. -/
def fitBits : Nat → Bits → Bits
  | 0, _ => []
  | w + 1, [] => false :: fitBits w []
  | w + 1, b :: bs => b :: fitBits w bs

/-! ## Buffers (R12, R61, R62) -/

/-- Bit `i` of a buffer: bit `i mod 8` of byte `i div 8` (R12, R61). -/
def bitAt (buf : List Byte) (i : Nat) : Bool := (buf.getD (i / 8) 0).getLsbD (i % 8)

/-- The first `n` bits of a buffer, in wire order. -/
def bufBits (buf : List Byte) (n : Nat) : Bits := (List.range n).map (bitAt buf)

/-- The `(TMS, TDI)` pairs of a vector of `n` bits, in wire order (R133); pad bits are not among them (R63). -/
def vectorOf (n : Nat) (tms tdi : List Byte) : List (Bool × Bool) :=
  (List.range n).map fun i => (bitAt tms i, bitAt tdi i)

/-- Bits packed into `ceil(n/8)` bytes, LSB first, pad bits 0 (R12, R61). -/
def packBits (bs : Bits) : List Byte :=
  (List.range (bytesFor bs.length)).map fun j => byteOfBits ((bs.drop (8 * j)).take 8)

/-- The 32 bits of a capture from bit `off` upward: `(cap >> off) & 0xFFFFFFFF` (R262, R264, R268). -/
def windowAt (buf : List Byte) (off : Nat) : Word :=
  wordOfBits ((List.range 32).map fun k => bitAt buf (off + k))

/-- `buf` with the bytes from index `i` on replaced by `bytes`, its length kept. -/
def setBytes (buf : List Byte) (i : Nat) (bytes : List Byte) : List Byte :=
  (buf.take i ++ bytes ++ buf.drop (i + bytes.length)).take buf.length

/-! ## Chunk words of the MMIO backend (R61, R65 (a)) -/

/-- The chunk word: `nb` buffer bytes from `byteIdx`, little endian, upper bytes zero (R61, R193). -/
def chunkWord (buf : List Byte) (byteIdx nb : Nat) : Word :=
  BitVec.ofNat 32 (natOfBytes ((buf.drop byteIdx).take nb))

/-- Byte `j` of a word: `w[8*j+7 : 8*j]` (R193). -/
def wordByte (w : Word) (j : Nat) : Byte := (w >>> (8 * j)).setWidth 8

/-- The logical right shift of a capture of `len` bits: by `32 - len` when `len < 32`, none when `len = 32`
(R197, R354). -/
def alignCapture (w : Word) (len : Nat) : Word := if len < 32 then w >>> (32 - len) else w

/-- `{s, w[31:1]}`: a sample enters the capture register at bit 31 (R191). -/
def pushWord (s : Bool) (w : Word) : Word := (w >>> 1) ||| (if s then 0x80000000#32 else 0#32)

/-! ## Bytes of the MPSSE commands and responses (R103, R106 (d), R242) -/

/-- `{s, rb[7:1]}`: a sample enters the receive shift register at bit 7 (R223, R224). -/
def pushByte (s : Bool) (rb : Byte) : Byte := (rb >>> 1) ||| (if s then 0x80#8 else 0#8)

/-- The data byte of a one-bit TMS-shift: `(tdi << 7) | tms` (R106 (d), R230). -/
def tmsShiftByte (tms tdi : Bool) : Byte := (if tdi then 0x80#8 else 0#8) ||| (if tms then 1#8 else 0#8)

/-- One response byte unpacked into the capture buffer by its descriptor (R242). -/
def unpack (d : Descriptor) (x : Byte) (buf : List Byte) : List Byte :=
  match d with
  | .byteShift pos => buf.set (pos / 8) x
  | .bitShift pos r => buf.set (pos / 8) (x >>> (8 - r))
  | .tmsShift pos => buf.set (pos / 8) (buf.getD (pos / 8) 0 ||| (((x >>> 7) &&& 1#8) <<< (pos % 8)))

/-! ## TAP codes (R95) -/

/-- The BYPASS code of a TAP: all ones up to `irLength` (R95). -/
def TapParams.bypassCode (p : TapParams) : Bits := List.replicate p.irLength true

/-- The IDCODE code of a TAP (R95). -/
def TapParams.idcodeCode (p : TapParams) : Bits := bitsOfNat p.irLength p.idCommand

/-- The instruction in effect in Test-Logic-Reset (R152). -/
def TapParams.resetCode (p : TapParams) : Bits := if p.hasIdcode then p.idcodeCode else p.bypassCode

/-! ## Setter operands (R93, R136) -/

/-- `clamp(v, 0, max)`, saturating (R136). -/
def clampNat (v : Int) (max : Nat) : Nat := min v.toNat max

/-- The sampling edge a timing value selects on USB: 0 for rising, every other value clamped to falling (R136). -/
def edgeOf (v : Int) : Bool := decide (v ≠ 0)

end Sys2Proof.Machine
end

