-- ==== Sys2Proof/Machine/Flags.lean ====
section
/-! DEFINITION. The two flags of the machine (`10_state.md` R45): the busy flag of STATUS and the detected flag. There
are no condition codes. -/

namespace Sys2Proof.Machine

/-- The bits within the busy mask that show busy: some are set, which ones is not in the source (R25). -/
def busyBits (mask free : Word) : Word := if free &&& mask = 0 then mask else free &&& mask

/-- The value STATUS reads as: `value & STATUS_BUSY` is non-zero exactly while busy; every other bit is free
(R25, log entry 16). -/
def statusValue (mask free : Word) (busy : Bool) : Word :=
  (free &&& ~~~mask) ||| (if busy then busyBits mask free else 0)

/-- The busy flag as the host sees it in a STATUS value (R196). -/
def showsBusy (mask value : Word) : Bool := decide (value &&& mask ≠ 0)

/-- The start strobe sets the busy flag and the cycle counter starts at 0 (R191, R195, R45). -/
def Mmio.setBusy (m : Mmio) : Mmio := { m with busy := true, count := 0 }

/-- The sequencer clears the busy flag when the chunk is done (R191, R45). -/
def Mmio.clearBusy (m : Mmio) : Mmio := { m with busy := false }

/-- `isDetected`: whether DeviceIdentity is present (R42, R45, `60_exceptions.md` R328 (b)). -/
def State.isDetected (s : State) : Bool := s.identity.isSome

end Sys2Proof.Machine
end

