-- ==== Sys2Proof/Machine/Ops.lean ====
section
/-! DEFINITION. The shared operations: outcomes in sequence, raising an error kind, the TCK cycle of the target, the
MMIO sequencer and its register window, the MPSSE engine and its streams. -/

namespace Sys2Proof.Machine

/-! ## Outcomes of a part of an operation (`00_scope.md` R14) -/

/-- What a part of an operation does: it goes on with a value and a state, leaves the host stuck for ever in a wait
(R350, R351), ends in a fatal error, or has no meaning. -/
inductive Res (α : Type) where
  | ok (a : α) (s : State)
  | stuck (s : State)
  | fault (f : Fault)
  | refused (r : Refusal)
deriving DecidableEq, Repr

/-- Goes on where the first part went on. -/
def Res.bind {α β : Type} (x : Res α) (f : α → State → Res β) : Res β :=
  match x with
  | .ok a s => f a s
  | .stuck s => .stuck s
  | .fault e => .fault e
  | .refused r => .refused r

/-- The operation's outcome: its result recorded by `fin`. A stuck host is a next state in which nothing more
happens (`70_reset_and_hazards.md` R350: a stuck host, not a fault). -/
def Res.out {α : Type} (x : Res α) (fin : α → State → State) :
    Host.Outcome State Fault Refusal :=
  match x with
  | .ok a s => .next (fin a s)
  | .stuck s => .next s
  | .fault e => .fault e
  | .refused r => .refused r

/-! ## Raising an error kind (`60_exceptions.md` R310, R320) -/

/-- The ONE operation that takes an error: a fatal kind ends the operation with the error as its only outcome; a soft
kind emits a diagnostic and the operation goes on. Nothing is saved and nothing is vectored to, so there is no
operation that returns (R320). -/
def raise (k : ErrorKind) (s : State) : Res Unit :=
  match k with
  | .transportOpenFailure => .fault .transportOpenFailure
  | .transportTimeout => .fault .transportTimeout
  | .detectionFailure => .ok () (s.setDiags (s.diags ++ [.detectionFailure]))
  | .calibrationEmpty => .ok () (s.setDiags (s.diags ++ [.calibrationEmpty]))
  | .hardeningRejected => .ok () (s.setDiags (s.diags ++ [.hardeningRejected]))
  | .outOfRangeParameter => .ok () (s.setDiags (s.diags ++ [.outOfRangeParameter]))

/-! ## The target: one TCK cycle (`41_tap_fsm.md`) -/

/-- `Next(s, tms)`: the transitions (R152 to R167, R177). -/
def tapNext : TapState → Bool → TapState
  | .testLogicReset, tms => if tms then .testLogicReset else .runTestIdle
  | .runTestIdle, tms => if tms then .selectDrScan else .runTestIdle
  | .selectDrScan, tms => if tms then .selectIrScan else .captureDr
  | .captureDr, tms => if tms then .exit1Dr else .shiftDr
  | .shiftDr, tms => if tms then .exit1Dr else .shiftDr
  | .exit1Dr, tms => if tms then .updateDr else .pauseDr
  | .pauseDr, tms => if tms then .exit2Dr else .pauseDr
  | .exit2Dr, tms => if tms then .updateDr else .shiftDr
  | .updateDr, tms => if tms then .selectDrScan else .runTestIdle
  | .selectIrScan, tms => if tms then .testLogicReset else .captureIr
  | .captureIr, tms => if tms then .exit1Ir else .shiftIr
  | .shiftIr, tms => if tms then .exit1Ir else .shiftIr
  | .exit1Ir, tms => if tms then .updateIr else .pauseIr
  | .pauseIr, tms => if tms then .exit2Ir else .pauseIr
  | .exit2Ir, tms => if tms then .updateIr else .shiftIr
  | .updateIr, tms => if tms then .selectDrScan else .runTestIdle

/-- The data register an instruction selects (R170 to R172). -/
inductive DataRegister where
  | idcode
  | bypass
  | undescribed
deriving DecidableEq, Repr

/-- The register the TAP's current instruction selects: the identification register under IDCODE, when the device has
it; the bypass register under all ones; otherwise one the spec does not describe (R170 to R172, log entry 14). -/
def Tap.selected (t : Tap) : DataRegister :=
  if t.par.hasIdcode && decide (t.instr = t.par.idcodeCode) then .idcode
  else if t.instr = t.par.bypassCode then .bypass
  else .undescribed

/-- A shift stage after one shift: one place toward bit 0, the new bit in at the top (R156, R163). -/
def shiftStage (r : Bits) (tdi : Bool) : Bits := (r ++ [tdi]).tail

/-- What TDO carries during the cycle: bit 0 of the shift stage in the two shift states, undriven otherwise, and
undetermined while the TAP's state is unspecified (R151 step 1, R169). -/
def Tap.tdo (t : Tap) : Option Bool :=
  if t.known then
    match t.state with
    | .shiftDr => t.drSr.head?
    | .shiftIr => t.irSr.head?
    | _ => none
  else none

/-- The action of a cycle spent in the TAP's state (R151 step 2); none is `refuse` (R172). -/
def Tap.act (t : Tap) (tdi : Bool) : Option Tap :=
  match t.state with
  | .captureDr =>
    match t.selected with
    | .idcode => some { t with drSr := wordBits t.par.idcodeValue }
    | .bypass => some { t with drSr := [false] }
    | .undescribed => none
  | .shiftDr =>
    match t.selected with
    | .undescribed => none
    | _ => some { t with drSr := shiftStage t.drSr tdi }
  | .captureIr => some { t with irSr := bitsOfNat t.par.irLength t.par.irCapture }
  | .shiftIr => some { t with irSr := shiftStage t.irSr tdi }
  | _ => some t

/-- The transition and the actions on entering a state (R151 steps 3 and 4). -/
def Tap.enter (t : Tap) (tms : Bool) : Tap :=
  match tapNext t.state tms with
  | .updateIr => { t with state := .updateIr, instr := t.irSr }
  | .testLogicReset => { t with state := .testLogicReset, instr := t.par.resetCode }
  | st => { t with state := st }

/-- The TAP with every register unspecified: free values, in the widths of the registers (R47, R48). -/
def Tap.lose (t : Tap) (free : TapRegs) : Tap :=
  { t with
    known := false
    ones := 0
    state := free.state
    instr := fitBits t.par.irLength free.instr
    irSr := fitBits t.par.irLength free.irSr
    drSr := free.drSr.take 32 }

/-- A cycle of a TAP whose state is unspecified: defined only in that five successive cycles with TMS = 1 establish
Test-Logic-Reset; every other effect is a draw (R151, R168, log entry 4). -/
def Tap.cycleUnknown (t : Tap) (tms : Bool) (free : TapRegs) : Tap :=
  let lost := t.lose free
  if tms then
    if 4 ≤ t.ones then { lost with known := true, state := .testLogicReset, instr := t.par.resetCode }
    else { lost with ones := t.ones + 1 }
  else lost

/-- `TapCycle(tms, tdi)` on one TAP (R151); none is `refuse`. -/
def Tap.cycle (t : Tap) (tms tdi : Bool) (free : TapRegs) : Option Tap :=
  if t.known then (t.act tdi).map fun t' => t'.enter tms
  else some (t.cycleUnknown tms free)

/-- One TCK cycle of a chain (R173): every TAP gets the same TMS; TAP `j` takes as TDI what TAP `j-1` drives on TDO
in that cycle, a free bit where it drives nothing; the answer is the TDO of the last TAP. `draw` and `j` index the
free values. -/
def chainCycle (draw : Nat) (tms : Bool) : Nat → Bool → List Tap → Option (List Tap × Option Bool)
  | _, _, [] => some ([], none)
  | j, tdi, t :: ts =>
    match t.cycle tms tdi (Config.freeTap draw j) with
    | none => none
    | some t' =>
      match ts with
      | [] => some ([t'], t.tdo)
      | _ :: _ =>
        match chainCycle draw tms (j + 1) (t.tdo.getD (Config.freeBit draw (j + 1))) ts with
        | none => none
        | some (ts', o) => some (t' :: ts', o)

/-- Every TAP of a chain unspecified, with free values (R47, R48). -/
def loseChain (draw : Nat) : Nat → List Tap → List Tap
  | _, [] => []
  | j, t :: ts => t.lose (Config.freeTap draw j) :: loseChain draw (j + 1) ts

/-- The target with every TAP unspecified; the loopback double has no state (R140). -/
def Target.lose (draw : Nat) : Target → Target
  | .chain ts => .chain (loseChain draw 0 ts)
  | .loopback f => .loopback f

/-- `f(tms, tdi)` of the loopback double (R140). -/
def LoopFn.eval (f : LoopFn) (tms tdi : Bool) : Bool :=
  if tms then (if tdi then f.f11 else f.f10) else (if tdi then f.f01 else f.f00)

/-! ## Operating points and clocked cycles (`10_state.md` R48, `40_transport_contract.md` R133) -/

/-- The point lies in the block. -/
def PointRange.covers (r : PointRange) (div tp : Nat) : Bool :=
  decide (r.divLo ≤ div) && decide (div ≤ r.divHi) && decide (r.tpLo ≤ tp) && decide (tp ≤ r.tpHi)

/-- `Valid(div, tp)` (R48). -/
def Env.isValid (e : Env) (pt : Nat × Nat) : Bool :=
  e.allValid || e.validPoints.any fun r => r.covers pt.1 pt.2

/-- One TCK cycle clocked by an engine at an operating point, and the sample it takes. At a valid point the sample is
the bit the target drives, or a free bit where it drives none (R133, R169); at an invalid point the sample is a free
bit and the target is left unspecified (R48, R358, log entry 7). -/
def clock (pt : Nat × Nat) (tms tdi : Bool) (s : State) : Res Bool :=
  let free := Config.freeBit s.draws 0
  let s' := s.setDraws (s.draws + 1)
  if s.env.isValid pt then
    match s.target with
    | .loopback f => .ok (f.eval tms tdi) s'
    | .chain ts =>
      match chainCycle s.draws tms 0 tdi ts with
      | none => .refused .reservedTapInstruction
      | some (ts', o) => .ok (o.getD free) (s'.setTarget (.chain ts'))
  else .ok free (s'.setTarget (s.target.lose s.draws))

/-- `ShiftSpec` (R133): one cycle for each `(TMS, TDI)` pair, in order, and the bits captured. -/
def clockAll (pt : Nat × Nat) : List (Bool × Bool) → State → Res Bits
  | [], s => .ok [] s
  | (tms, tdi) :: v, s =>
    (clock pt tms tdi s).bind fun b s1 =>
      (clockAll pt v s1).bind fun bs s2 => .ok (b :: bs) s2

/-- The operating point in effect in the MMIO engine (R26, R27, R48). -/
def State.mmioPoint (s : State) : Nat × Nat := (s.mmio.clkdiv.toNat, s.mmio.delay.toNat)

/-- The operating point in effect in the USB adapter for commands of sampling edge `e` (R31, R32, R48, R221). -/
def State.usbPoint (s : State) (e : Bool) : Nat × Nat := (s.usb.div.toNat, e.toNat)

/-! ## Which engine this instance has (R3, R43) -/

/-- Goes on only where T.OPEN has made a handle (R43). -/
def needHandle (s : State) : Res Handle :=
  match s.handle with
  | some h => .ok h s
  | none => .refused .notOpen

/-- Goes on only where T.OPEN has made a handle and the target is not in the sequencer's hands: the cycles of a chunk
are one unit that nothing interrupts, and TCK does not run outside it (R68, R191, log entry 13). -/
def needTarget (s : State) : Res Unit :=
  (needHandle s).bind fun _ s1 => if s1.mmio.busy then .refused .targetInUse else .ok () s1

/-- Goes on only where the instance has the MMIO sequencer. -/
def needMmio (s : State) : Res Unit :=
  match s.handle with
  | some (.mmio _) => .ok () s
  | some (.usb _) => .refused .engineAbsent
  | none => .refused .notOpen

/-- Goes on only where the instance has the USB adapter. -/
def needUsb (s : State) : Res Unit :=
  match s.handle with
  | some (.usb _) => .ok () s
  | some (.mmio _) => .refused .engineAbsent
  | none => .refused .notOpen

/-! ## The MMIO sequencer (`42_mmio_sequencer.md` R191) -/

/-- One iteration of `EngineRun`, or its end: present bit `count` of TMS and TDI, sample, shift the sample into
TDO at bit 31, count; when `LENGTH` cycles are done clear busy (R191). -/
def engineTick (s : State) : Res Unit :=
  if s.mmio.count < s.mmio.length.toNat then
    (clock s.mmioPoint (s.mmio.tms.getLsbD s.mmio.count) (s.mmio.tdi.getLsbD s.mmio.count) s).bind fun b s1 =>
      .ok () (s1.setMmio { s1.mmio with tdo := pushWord b s1.mmio.tdo, count := s1.mmio.count + 1 })
  else .ok () (s.setMmio s.mmio.clearBusy)

/-- At most `k` moves of the sequencer; it moves only while busy. -/
def engineTicks : Nat → State → Res Unit
  | 0, s => .ok () s
  | k + 1, s => if s.mmio.busy then (engineTick s).bind fun _ s1 => engineTicks k s1 else .ok () s

/-- The sequencer runs to the end of its chunk (R191). -/
def engineFinish (s : State) : Res Unit := engineTicks (s.mmio.length.toNat - s.mmio.count + 1) s

/-- What the sequencer does before the host's next operation: nothing when idle; while busy, as many moves as the
environment's pace says; to the end of the chunk once the pace list is used up, unless it is unresponsive (log entry
8). -/
def engineTurn (s : State) : Res Unit :=
  if s.mmio.busy then
    match s.env.pace with
    | k :: rest => engineTicks k (s.setEnv { s.env with pace := rest })
    | [] => if s.env.engineAlive then engineFinish s else .ok () s
  else .ok () s

/-! ## The register window (`42_mmio_sequencer.md` R195 to R202) -/

/-- `MMIO_Write` of a data or control register: the value is stored and nothing else happens (R69); while busy it is
`refuse` (R75, R353). -/
def mmioWrite (f : Mmio → Mmio) (s : State) : Res Unit :=
  (needMmio s).bind fun _ s1 =>
    if s1.mmio.busy then .refused .accessWhileBusy else .ok () (s1.setMmio (f s1.mmio))

/-- A register write of a value whose legal range is `0..max` (R26, R27, R201, R202): a value outside it is never
written, the request is ignored with the diagnostic of R315 (log entry 24). -/
def mmioWriteIn (max : Nat) (v : Word) (f : Mmio → Mmio) (s : State) : Res Unit :=
  (needMmio s).bind fun _ s1 =>
    if s1.mmio.busy then .refused .accessWhileBusy
    else if max < v.toNat then raise .outOfRangeParameter s1
    else .ok () (s1.setMmio (f s1.mmio))

/-- The start strobe (R195): `EngineRun` begins with busy set; while busy, or with LENGTH outside 1..32, it is
`refuse` (R21, R75). -/
def mmioStart (s : State) : Res Unit :=
  (needMmio s).bind fun _ s1 =>
    if s1.mmio.busy then .refused .accessWhileBusy
    else if 1 ≤ s1.mmio.length.toNat ∧ s1.mmio.length.toNat ≤ chunkBits then
      .ok () (s1.setMmio { s1.mmio with ctrl := s1.cfg.ctrlStart }.setBusy)
    else .refused .lengthOutOfRange

/-- `MMIO_Read` of STATUS (R196): no side effect on the device. -/
def mmioStatus (s : State) : Res Word :=
  (needMmio s).bind fun _ s1 =>
    .ok (statusValue s1.cfg.statusBusy (Config.freeStatus s1.statusReads) s1.mmio.busy)
      (s1.setStatusReads (s1.statusReads + 1))

/-- `MMIO_Read` of TDO (R197): no side effect; while busy it is `refuse`. -/
def mmioTdo (s : State) : Res Word :=
  (needMmio s).bind fun _ s1 =>
    if s1.mmio.busy then .refused .tdoReadWhileBusy else .ok s1.mmio.tdo s1

/-- `MMIO_Read` of a register that no operation of the table reads back: LENGTH, TMS, TDI, CTRL, CLKDIV or DELAY. Any
value (U37): a free one at each read, and no side effect. -/
def mmioReadBack (s : State) : Res Word :=
  (needMmio s).bind fun _ s1 => .ok (Config.freeWord s1.draws 0) (s1.setDraws (s1.draws + 1))

/-- `BusyPoll` (R196): reads STATUS until it shows not busy; the sequencer moves before each read at the pace the
environment gives. With a positive POLL_LIMIT the wait ends in TransportTimeout after that many busy reads (R204,
R316); an unresponsive sequencer with POLL_LIMIT 0 leaves the host stuck for ever (R350). `polls` counts the busy
reads so far. -/
def busyPoll : List Nat → Nat → State → Res Unit
  | k :: rest, polls, s =>
    (engineTicks k (s.setEnv { s.env with pace := rest })).bind fun _ s1 =>
      (mmioStatus s1).bind fun v s2 =>
        if showsBusy s2.cfg.statusBusy v then
          if 0 < s2.cfg.pollLimit ∧ s2.cfg.pollLimit ≤ polls + 1 then raise .transportTimeout s2
          else busyPoll rest (polls + 1) s2
        else .ok () s2
  | [], _, s =>
    if s.env.engineAlive then
      (engineFinish s).bind fun _ s1 => (mmioStatus s1).bind fun _ s2 => .ok () s2
    else if 0 < s.cfg.pollLimit then raise .transportTimeout s
    else .stuck (s.setHost { s.host with phase := .stuckBusyPoll })

/-! ## The MPSSE engine (`43_mpsse_assembler.md` R222 to R226) -/

/-- One data byte of U.BYTE_SHIFT: eight cycles with TMS held, TDI bit 0 first; the response byte has the sample of
cycle `b` at bit `b` (R222, R226). -/
def adapterByte (e : Bool) (d : Byte) (s : State) : Res Unit :=
  (clockAll (s.usbPoint e) ((byteBits d).map fun b => (s.usb.tms, b)) s).bind fun bits s1 =>
    .ok () (s1.setUsb { s1.usb with rb := byteOfBits bits, rspq := s1.usb.rspq ++ [byteOfBits bits] })

/-- What the adapter does with U.BYTE_SHIFT (R222). -/
def adapterByteShift (e : Bool) : List Byte → State → Res Unit
  | [], s => .ok () s
  | d :: ds, s => (adapterByte e d s).bind fun _ s1 => adapterByteShift e ds s1

/-- The receive shift register after some samples, each entering at bit 7 (R223, R224). -/
def pushBits (rb : Byte) (bits : Bits) : Byte := bits.foldl (fun r b => pushByte b r) rb

/-- What the adapter does with U.BIT_SHIFT: `r` cycles with TMS held, TDI bit 0 of the data byte first; one response
byte, samples aligned to bit 7 (R223, R226). -/
def adapterBitShift (e : Bool) (r : Nat) (d : Byte) (s : State) : Res Unit :=
  (clockAll (s.usbPoint e) (((byteBits d).take r).map fun b => (s.usb.tms, b)) s).bind fun bits s1 =>
    .ok () (s1.setUsb { s1.usb with
      rb := pushBits s1.usb.rb bits, rspq := s1.usb.rspq ++ [pushBits s1.usb.rb bits] })

/-- What the adapter does with U.TMS_SHIFT: `r` cycles with the TMS bits `b[r-1:0]` and TDI held at `b[7]`; TMS stays
at the last of them; one response byte, samples aligned to bit 7 (R224, R226; the general form is R100's). -/
def adapterTmsShift (e : Bool) (r : Nat) (b : Byte) (s : State) : Res Unit :=
  (clockAll (s.usbPoint e) (((byteBits b).take r).map fun m => (m, b.getLsbD 7)) s).bind fun bits s1 =>
    .ok () (s1.setUsb { s1.usb with
      tms := b.getLsbD (r - 1)
      rb := pushBits s1.usb.rb bits, rspq := s1.usb.rspq ++ [pushBits s1.usb.rb bits] })

/-- What the adapter does with U.SET_DIVISOR (R225): no cycle, no response. -/
def adapterSetDivisor (div : Half) (s : State) : Res Unit := .ok () (s.setUsb { s.usb with div := div })

/-- The adapter executes one decoded command. -/
def adapterExec (i : Instr) (s : State) : Res Unit :=
  match i with
  | .uByteShift e d => adapterByteShift e d s
  | .uBitShift e r d => adapterBitShift e r d s
  | .uTmsShift e r b => adapterTmsShift e r b s
  | .uSetDivisor div => adapterSetDivisor div s
  | _ => .refused .unknownCommandByte

/-- The adapter consumes its command stream in arrival order (R71, R97), at most `fuel` commands; it waits where the
stream ends inside a command, and a byte that begins no command is `refuse` (R104), as is a length byte with no legal bit
count (DESIGN CHOICE, log entry 43). -/
def adapterRun : Nat → State → Res Unit
  | 0, s => .ok () s
  | fuel + 1, s =>
    match decodeCommand s.cfg s.usb.cmdq with
    | .incomplete => .ok () s
    | .bad _ => .refused .unknownCommandByte
    | .ok i rest => (adapterExec i (s.setUsb { s.usb with cmdq := rest })).bind fun _ s1 => adapterRun fuel s1

/-- What the devices do before the host's next operation: the sequencer moves, the adapter consumes what its stream
holds (R71, R97). -/
def deviceTurn (s : State) : Res Unit :=
  (engineTurn s).bind fun _ s1 =>
    match s1.handle with
    | some (.usb _) => adapterRun s1.usb.cmdq.length s1
    | _ => .ok () s1

/-- The host's next write transfer is accepted, or ends in a transfer error (R317 (e), log entry 9). -/
def usbAccept (s : State) : Res Unit :=
  match s.env.writes with
  | [] => .ok () s
  | true :: rest => .ok () (s.setEnv { s.env with writes := rest })
  | false :: _ => .refused .usbTransferError

/-- `USB_Write` (`00_scope.md` R13): appends bytes to the adapter's command stream, which the adapter consumes. -/
def usbWrite (bytes : List Byte) (s : State) : Res Unit :=
  (usbAccept s).bind fun _ s1 =>
    let cmdq := s1.usb.cmdq ++ bytes
    adapterRun cmdq.length (s1.setUsb { s1.usb with cmdq := cmdq })

/-- `USB_Read(k)` (R244): reads the response stream until exactly `k` bytes have arrived, in arrival order. Each
transfer brings at most what the environment delivers; short reads are retried; where the bytes never come the host is
stuck for ever (R351); a transfer error is `refuse` (R317 (e)). The first argument is the list of deliveries to come. -/
def usbRead : List Transfer → Nat → List Byte → State → Res (List Byte)
  | .error :: _, _, _, _ => .refused .usbTransferError
  | .bytes d :: rest, k, got, s =>
    let chunk := s.usb.rspq.take (min d k)
    let s1 := (s.setUsb { s.usb with rspq := s.usb.rspq.drop (min d k) }).setEnv { s.env with delivery := rest }
    if chunk.length = k then .ok (got ++ chunk) s1
    else usbRead rest (k - chunk.length) (got ++ chunk) s1
  | [], k, got, s =>
    if s.env.usbAlive = true ∧ k ≤ s.usb.rspq.length then
      .ok (got ++ s.usb.rspq.take k) (s.setUsb { s.usb with rspq := s.usb.rspq.drop k })
    else .stuck (s.setHost { s.host with phase := .stuckRead })

/-! ## The caller's next operation (log entry 1) -/

/-- What stands at the head of the caller's bytes: nothing yet, an operation of the table, a read of another register,
something that is not issued, or something the spec gives no meaning. -/
inductive Fetched where
  | idle
  | op (i : Instr) (rest : List Byte)
  | readBack (rest : List Byte)
  | unissued (rest : List Byte)
  | refuse (r : Refusal)
deriving DecidableEq, Repr

/-- The caller keeps to its own limit: a longer shift is rejected before the call and never reaches T.SHIFT (R139). -/
def Config.accepts (c : Config) : Instr → Bool
  | .tShift n _ =>
    match c.callerMaxBits with
    | none => true
    | some m => decide (n ≤ m)
  | _ => true

/-- The refusal of a call that the spec gives no meaning (R104, R317 (f)); none where the bytes begin no call. A bit count
that R99 and R100 do not admit is refused as an unknown command byte is: DESIGN CHOICE (log entry 43). -/
def callRefusal : DecodeError → Option Refusal
  | .shiftRequest => some .badShiftRequest
  | .payload => some .emptyPayload
  | .unknownCommandByte => some .unknownCommandByte
  | .bitCount => some .unknownCommandByte
  | .misalignedOffset => some .badAccess
  | .outsideWindow => some .badAccess
  | .unnamedOffset => some .badAccess
  | .undescribedWrite => some .undescribedWrite
  | .undescribedStrobe => some .undescribedWrite
  | .unknownCall => none
  | .operandRange => none
  | .readBack => none

/-- Fetches what the caller issues next (log entry 1): a call whose bytes are not all there is not issued yet, and a
byte that begins no call is filler. -/
def fetchCall (s : State) : Fetched :=
  match s.calls with
  | [] => .idle
  | b :: bs =>
    match decodeReadBack s.cfg (b :: bs) with
    | some rest => .readBack rest
    | none =>
      match decode s.cfg (b :: bs) with
      | .ok i rest => if Config.accepts s.cfg i then .op i rest else .unissued rest
      | .incomplete => .idle
      | .bad why =>
        match callRefusal why with
        | none => .unissued bs
        | some r => .refuse r

/-- A handle of the MMIO backend, the one there is or UIO device 0. -/
def State.withMmio (s : State) : State :=
  match s.handle with
  | some (.mmio _) => s
  | _ => s.setHandle (some (.mmio 0))

/-- A handle of the USB backend, the one there is or the device of `Env.atReset`. -/
def State.withUsb (s : State) : State :=
  match s.handle with
  | some (.usb _) => s
  | _ => s.setHandle (some (.usb { vid := 0, pid := 0, serial := [], interface := 0 }))

/-- Every TAP of the chain known to be in a state. -/
def State.withTapState (s : State) (x : TapState) : State :=
  match s.target with
  | .loopback _ => s
  | .chain ts => s.setTarget (.chain (ts.map fun t => { t with known := true, state := x }))

/-- The state an operation of the table needs to run (log entry 27): an M operation an MMIO instance, a U operation a
USB one, a J operation an instance, a J.TCK operation a target in its
state as well. -/
def State.prepared (s : State) : Option Instr → State
  | none => s
  | some i =>
    match i with
    | .mWrLength _ | .mWrTms _ | .mWrTdi _ | .mWrStart | .mRdStatus | .mRdTdo | .mWrClkdiv _ | .mWrDelay _ => s.withMmio
    | .uByteShift _ _ | .uBitShift _ _ _ | .uTmsShift _ _ _ | .uSetDivisor _ | .uFlush => s.withUsb
    | .jIdcode | .jBypass => if s.handle = none then s.withMmio else s
    | _ =>
      match i.tck? with
      | none => s
      | some (x, _, _) => (if s.handle = none then s.withMmio else s).withTapState x

/-! ## The USB driver's batch (`43_mpsse_assembler.md` R235, R240 to R242) -/

/-- Replays the descriptor list over the response bytes (R241, R242), the descriptor cursor moving along (R30 (d)). -/
def replay : List Descriptor → List Byte → HostSeq → HostSeq
  | d :: ds, x :: xs, h => replay ds xs { h with tdoBuf := unpack d x h.tdoBuf, descIdx := h.descIdx + 1 }
  | _, _, h => h

/-- `Flush` (R240): write the batch, one blocking read of one byte per descriptor, unpack by replaying the same
descriptor list. -/
def usbFlush (s : State) : Res Unit :=
  let s0 := s.setUsbHost { s.usbHost with run := none }
  if s0.usbHost.desc = [] then .ok () s0
  else
    (usbWrite s0.usbHost.out s0).bind fun _ s1 =>
      (usbRead s1.env.delivery s1.usbHost.desc.length [] s1).bind fun rx s2 =>
        .ok () ((s2.setHost { replay s2.usbHost.desc rx { s2.host with descIdx := 0 } with descIdx := 0 }).setUsbHost
          { s2.usbHost with out := [], desc := [] })

/-- `Emit` (R235): flush first where a budget would be exceeded, then append. -/
def usbEmit (bytes : List Byte) (ds : List Descriptor) (s : State) : Res Unit :=
  let s0 := s.setUsbHost { s.usbHost with run := none }
  let full := decide (s0.cfg.cmdBudgetBytes < s0.usbHost.out.length + bytes.length)
    || decide (s0.cfg.descBudget < s0.usbHost.desc.length + ds.length)
  (if full then usbFlush s0 else .ok () s0).bind fun _ s1 =>
    .ok () (s1.setUsbHost { s1.usbHost with out := s1.usbHost.out ++ bytes, desc := s1.usbHost.desc ++ ds })

end Sys2Proof.Machine
end

