-- ==== Sys2Proof/Machine/Mmio.lean ====
section
/-! DEFINITION. The register operations of the MMIO sequencer (`42_mmio_sequencer.md` R195 to R202). -/

namespace Sys2Proof.Machine

/-- The caller's result of a register read. -/
def giveWord (w : Word) (s : State) : State := s.setRet (.word w)

/-- The caller's result of a register write: nothing. -/
def giveWritten (_ : Unit) (s : State) : State := s.setRet .none

/-- M.WR_LENGTH (R198). -/
def execMWrLength (v : Word) (s : State) : Host.Outcome State Fault Refusal :=
  (mmioWrite (fun m => { m with length := v }) s).out giveWritten

/-- M.WR_TMS (R199). -/
def execMWrTms (v : Word) (s : State) : Host.Outcome State Fault Refusal :=
  (mmioWrite (fun m => { m with tms := v }) s).out giveWritten

/-- M.WR_TDI (R200). -/
def execMWrTdi (v : Word) (s : State) : Host.Outcome State Fault Refusal :=
  (mmioWrite (fun m => { m with tdi := v }) s).out giveWritten

/-- M.WR_START (R195): the engine begins its run; it moves on its own (R191), in the turns of `engineTurn` and
`busyPoll`. -/
def execMWrStart (s : State) : Host.Outcome State Fault Refusal := (mmioStart s).out giveWritten

/-- M.RD_STATUS (R196). -/
def execMRdStatus (s : State) : Host.Outcome State Fault Refusal := (mmioStatus s).out giveWord

/-- M.RD_TDO (R197): the raw register; the alignment is the chunk loop's. -/
def execMRdTdo (s : State) : Host.Outcome State Fault Refusal := (mmioTdo s).out giveWord

/-- M.WR_CLKDIV (R201, R26). -/
def execMWrClkdiv (v : Word) (s : State) : Host.Outcome State Fault Refusal :=
  (mmioWriteIn s.cfg.divMax v (fun m => { m with clkdiv := v }) s).out giveWritten

/-- M.WR_DELAY (R202, R27). -/
def execMWrDelay (v : Word) (s : State) : Host.Outcome State Fault Refusal :=
  (mmioWriteIn s.cfg.delayMax v (fun m => { m with delay := v }) s).out giveWritten

end Sys2Proof.Machine
end

