-- ==== Sys2Proof/Machine/Transport.lean ====
section
/-! DEFINITION. The transport contract (`40_transport_contract.md`): construction, the shift primitive by either
backend (`42_mmio_sequencer.md` R193, `43_mpsse_assembler.md` R230 to R235), the two setters. -/

namespace Sys2Proof.Machine

/-! ## Construction (R130, `10_state.md` R47) -/

/-- An unspecified register whose legal values are `0..max`: a free value within them (R26, R27, R31, R47). -/
def freeUpTo (draw place max : Nat) : Nat := (Config.freeWord draw place).toNat % (max + 1)

/-- The state after a construction that succeeds: the values of R47, free values where it calls them unspecified
(log entry 3). -/
def State.opened (s : State) (h : Handle) : State :=
  { s with
    handle := some h
    mmio := { length := Config.freeWord s.draws 0
              tms := Config.freeWord s.draws 1
              tdi := Config.freeWord s.draws 2
              tdo := Config.freeWord s.draws 3
              ctrl := Config.freeWord s.draws 4
              clkdiv := BitVec.ofNat 32 (freeUpTo s.draws 5 s.cfg.divMax)
              delay := BitVec.ofNat 32 (freeUpTo s.draws 6 s.cfg.delayMax)
              busy := false
              count := 0 }
    shadow := { len := 0, tms := 0, tdi := 0 }
    usb := { div := BitVec.ofNat 16 (freeUpTo s.draws 7 s.cfg.usbDivMax)
             tms := Config.freeBit s.draws 0
             rb := (Config.freeWord s.draws 8).setWidth 8
             cmdq := []
             rspq := [] }
    usbHost := { edge := false, tmsLevel := none, out := [], desc := [], run := none }
    host := HostSeq.idle
    target := s.target.lose s.draws
    identity := none
    table := []
    ret := .none
    draws := s.draws + 1 }

/-- The device the construction asks for can be opened or claimed, and on MMIO the offset table passes its
validation (R130, R319). -/
def State.canOpen (s : State) : OpenParams → Bool
  | .mmio i => decide (i ∈ s.env.uioNodes) && s.cfg.tableOk
  | .usb a => decide (a ∈ s.env.usbDevices)

/-- The handle a construction makes (R43). -/
def OpenParams.handle : OpenParams → Handle
  | .mmio i => .mmio i
  | .usb a => .usb a

/-- `T.OPEN` (R130); a second construction while an instance owns the hardware is outside the contract (log entry
20). -/
def openTransport (p : OpenParams) (s : State) : Res Unit :=
  match s.handle with
  | some _ => .refused .alreadyOpen
  | none => if s.canOpen p then .ok () (s.opened (OpenParams.handle p)) else raise .transportOpenFailure s

/-! ## `MmioShift` (`42_mmio_sequencer.md` R192 to R194) -/

/-- A register write of the chunk loop: elided after the first chunk when the shadow already holds the value (R194);
else the write, and the shadow with it. -/
def chunkWrite (first same : Bool) (f : Mmio → Mmio) (g : Shadow → Shadow) (s : State) : Res Unit :=
  if !first && same then .ok () s
  else (mmioWrite f s).bind fun _ s1 => .ok () (s1.setShadow (g s1.shadow))

/-- One round of the chunk loop (R193). -/
def mmioChunk (tms tdi : List Byte) (first : Bool) (s : State) : Res Unit :=
  let len := min chunkBits s.host.bitsLeft
  let nb := bytesFor len
  let at_ := s.host.byteIdx
  let wLen : Word := BitVec.ofNat 32 len
  let wTms := chunkWord tms at_ nb
  let wTdi := chunkWord tdi at_ nb
  (chunkWrite first (decide (wLen = s.shadow.len)) (fun m => { m with length := wLen })
    (fun h => { h with len := wLen }) s).bind fun _ s1 =>
  (chunkWrite first (decide (wTms = s1.shadow.tms)) (fun m => { m with tms := wTms })
    (fun h => { h with tms := wTms }) s1).bind fun _ s2 =>
  (chunkWrite first (decide (wTdi = s2.shadow.tdi)) (fun m => { m with tdi := wTdi })
    (fun h => { h with tdi := wTdi }) s2).bind fun _ s3 =>
  (mmioStart s3).bind fun _ s4 =>
  (busyPoll s4.env.pace 0 s4).bind fun _ s5 =>
  (mmioTdo s5).bind fun w s6 =>
    let bytes := (List.range nb).map (wordByte (alignCapture w len))
    .ok () (s6.setHost { s6.host with
      tdoBuf := setBytes s6.host.tdoBuf at_ bytes
      byteIdx := at_ + nb
      bitsLeft := s6.host.bitsLeft - len })

/-- The chunk loop, at most `fuel` rounds (R193). -/
def mmioLoop (tms tdi : List Byte) : Nat → Bool → State → Res Unit
  | 0, _, s => .ok () s
  | fuel + 1, first, s =>
    if s.host.bitsLeft = 0 then .ok () s
    else (mmioChunk tms tdi first s).bind fun _ s1 => mmioLoop tms tdi fuel false s1

/-- `ceil(n/32)`, the number of chunks (R193). -/
def chunksFor (n : Nat) : Nat := (n + 31) / 32

/-- `MmioShift` (R193): the shadows are zeroed (R192), then the chunk loop. That the capture buffer starts with zeros is
the model's DESIGN CHOICE (log entry 38): D18 says it for USB alone. -/
def mmioShift (n : Nat) (tms tdi : List Byte) (s : State) : Res (List Byte) :=
  let s0 := (s.setShadow { len := 0, tms := 0, tdi := 0 }).setHost
    { HostSeq.idle with bitsLeft := n, tdoBuf := List.replicate (bytesFor n) 0 }
  (mmioLoop tms tdi (chunksFor n) true s0).bind fun _ s1 => .ok s1.host.tdoBuf (s1.setHost HostSeq.idle)

/-! ## `UsbShift` (`43_mpsse_assembler.md` R230 to R235) -/

/-- The open run, where the next byte may join it (R231). -/
def joinableRun (c : Config) (h : UsbHost) : Option ByteRun :=
  match h.run with
  | none => none
  | some r =>
    if c.cmdBudgetBytes < h.out.length + 1 ∨ c.descBudget < h.desc.length + 1 ∨ r.k = 65536 then none else some r

/-- `ByteArm` (R231): a TMS-zero byte joins the open byte-shift run or begins a new command. -/
def byteArm (i : Nat) (d : Byte) (s : State) : Res Unit :=
  match joinableRun s.cfg s.usbHost with
  | some r =>
    .ok () (s.setUsbHost { s.usbHost with
      out := ((s.usbHost.out ++ [d]).set (r.pos + 1) (BitVec.ofNat 8 r.k)).set (r.pos + 2) (BitVec.ofNat 8 (r.k / 256))
      desc := s.usbHost.desc ++ [.byteShift (8 * i)]
      run := some { r with k := r.k + 1 } })
  | none =>
    let full := decide (s.cfg.cmdBudgetBytes < s.usbHost.out.length + 4)
      || decide (s.cfg.descBudget < s.usbHost.desc.length + 1)
    (if full then usbFlush s else .ok () s).bind fun _ s1 =>
      .ok () (s1.setUsbHost { s1.usbHost with
        out := s1.usbHost.out ++ [s1.cfg.opBytes s1.usbHost.edge, 0, 0, d]
        desc := s1.usbHost.desc ++ [.byteShift (8 * i)]
        run := some { pos := s1.usbHost.out.length, k := 1 } })

/-- The TMS-shift arm (R233): one command for each valid bit of the byte; the host's copy of the level follows
(R226). -/
def tmsArm (i : Nat) (m d : Byte) : List Nat → State → Res Unit
  | [], s => .ok () s
  | b :: bs, s =>
    (usbEmit [s.cfg.opTms s.usbHost.edge, 0, tmsShiftByte (m.getLsbD b) (d.getLsbD b)] [.tmsShift (8 * i + b)] s).bind
      fun _ s1 => tmsArm i m d bs (s1.setUsbHost { s1.usbHost with tmsLevel := some (m.getLsbD b) })

/-- The arms for TMS byte `i` (R230, R232, R234), then the scan cursor moves on. -/
def usbByte (n : Nat) (tms tdi : List Byte) (s : State) : Res Unit :=
  let i := s.host.scan
  let left := n - 8 * i
  let valid := min 8 left
  let t := tms.getD i 0 &&& BitVec.ofNat 8 (2 ^ valid - 1)
  let d := tdi.getD i 0
  (if t = 0 ∧ s.usbHost.tmsLevel = some false ∧ 8 ≤ left then byteArm i d s
   else if t = 0 ∧ s.usbHost.tmsLevel = some false then
     usbEmit [s.cfg.opBits s.usbHost.edge, BitVec.ofNat 8 (left - 1), d] [.bitShift (8 * i) left] s
   else tmsArm i (tms.getD i 0) d (List.range valid) s).bind fun _ s1 =>
    .ok () (s1.setHost { s1.host with scan := s1.host.scan + 1 })

/-- The scan over the TMS bytes, at most `fuel` of them (R230). -/
def usbLoop (n : Nat) (tms tdi : List Byte) : Nat → State → Res Unit
  | 0, s => .ok () s
  | fuel + 1, s =>
    if 8 * s.host.scan < n then (usbByte n tms tdi s).bind fun _ s1 => usbLoop n tms tdi fuel s1 else .ok () s

/-- `UsbShift` (R230): empty batch, capture buffer of zeros (R243), the scan, the last flush. -/
def usbShift (n : Nat) (tms tdi : List Byte) (s : State) : Res (List Byte) :=
  let s0 := (s.setUsbHost { s.usbHost with out := [], desc := [], run := none }).setHost
    { HostSeq.idle with tdoBuf := List.replicate (bytesFor n) 0 }
  (usbLoop n tms tdi (bytesFor n) s0).bind fun _ s1 =>
    (usbFlush s1).bind fun _ s2 => .ok s2.host.tdoBuf (s2.setHost HostSeq.idle)

/-! ## The shift primitive (R132) -/

/-- `T.SHIFT` (R132): a negative length or a buffer of the wrong length is `refuse`; length 0 does nothing. -/
def shift (n : Int) (buf : List Byte) (s : State) : Res (List Byte) :=
  (needHandle s).bind fun h s1 =>
    if n < 0 ∨ buf.length ≠ 2 * bytesFor n.toNat then .refused .badShiftRequest
    else if n = 0 then .ok [] s1
    else
      let half := bytesFor n.toNat
      match h with
      | .mmio _ => mmioShift n.toNat (buf.take half) (buf.drop half) s1
      | .usb _ => usbShift n.toNat (buf.take half) (buf.drop half) s1

/-- A vector given as `(TMS, TDI)` pairs in wire order, packed into its buffer (R12, R92). -/
def shiftPairs (v : List (Bool × Bool)) (s : State) : Res (List Byte) :=
  shift v.length (packBits (v.map (·.1)) ++ packBits (v.map (·.2))) s

/-! ## The setters (R135 to R137) -/

/-- `T.SET_CLOCK_DIVISOR` (R135, R136). -/
def setClockDivisor (v : Int) (s : State) : Res Unit :=
  (needHandle s).bind fun h s1 =>
    match h with
    | .mmio _ =>
      if v < 0 ∨ (s1.cfg.divMax : Int) < v then raise .outOfRangeParameter s1
      else mmioWrite (fun m => { m with clkdiv := BitVec.ofNat 32 v.toNat }) s1
    | .usb _ =>
      let div : Half := BitVec.ofNat 16 (clampNat v s1.cfg.usbDivMax)
      usbWrite (encodeCommand s1.cfg (.uSetDivisor div)) (s1.setUsb { s1.usb with div := div })

/-- `T.SET_TIMING_PARAM` (R137, R136). -/
def setTimingParam (v : Int) (s : State) : Res Unit :=
  (needHandle s).bind fun h s1 =>
    match h with
    | .mmio _ =>
      if v < 0 ∨ (s1.cfg.delayMax : Int) < v then raise .outOfRangeParameter s1
      else mmioWrite (fun m => { m with delay := BitVec.ofNat 32 v.toNat }) s1
    | .usb _ => .ok () (s1.setUsbHost { s1.usbHost with edge := edgeOf v })

/-! ## The operations -/

/-- The caller's result of an operation of the contract that returns nothing. -/
def giveDone (_ : Unit) (s : State) : State := s.setRet .none

/-- The caller's result of a shift: the capture buffer (R131). -/
def giveCapture (bs : List Byte) (s : State) : State := s.setRet (.bytes bs)

/-- T.OPEN (R130). -/
def execTOpen (p : OpenParams) (s : State) : Host.Outcome State Fault Refusal := (openTransport p s).out giveDone

/-- T.SHIFT (R132). -/
def execTShift (n : Int) (buf : List Byte) (s : State) : Host.Outcome State Fault Refusal :=
  (shift n buf s).out giveCapture

/-- T.SET_CLOCK_DIVISOR (R135). -/
def execTSetClockDivisor (v : Int) (s : State) : Host.Outcome State Fault Refusal :=
  (setClockDivisor v s).out giveDone

/-- T.SET_TIMING_PARAM (R137). -/
def execTSetTimingParam (v : Int) (s : State) : Host.Outcome State Fault Refusal :=
  (setTimingParam v s).out giveDone

end Sys2Proof.Machine
end

