-- ==== Sys2Proof/Machine/Probe.lean ====
section
/-! DEFINITION. The probes over the transport (`44_tap_probe.md`). -/

namespace Sys2Proof.Machine

/-! ## The vectors (R263, R265, R268, R269) -/

/-- Pairs with the given TMS bits and TDI 0. -/
def navigate (tms : Bits) : List (Bool × Bool) := tms.map fun m => (m, false)

/-- Data bits in a shift state, TMS raised on the last (the exit convention, R263). -/
def exitShift (tdi : Bits) : List (Bool × Bool) :=
  (List.replicate (tdi.length - 1) false ++ [true]).zip tdi

/-- Reset with five ones, one idle cycle, on to Shift-IR (R263, R269: cycles 0 to 9). -/
def toShiftIr : List (Bool × Bool) :=
  navigate [true, true, true, true, true, false, true, true, false, false]

/-- From Exit1-IR through Update-IR to Shift-DR (R263, R269). -/
def toShiftDr : List (Bool × Bool) := navigate [true, true, false, false]

/-- `IdcodeVector(irLength, idCommand)` (R263). -/
def idcodeVector (irLength idCommand : Nat) : List (Bool × Bool) :=
  toShiftIr ++ exitShift (bitsOfNat irLength idCommand) ++ toShiftDr ++ exitShift (List.replicate 32 false)

/-- `ScanVector` (R265). -/
def scanVector : List (Bool × Bool) :=
  navigate [true, true, true, true, true, false, true, false, false] ++ exitShift (List.replicate 32 false)

/-- `BypassIrVector(irLength)` (R269). -/
def bypassIrVector (irLength : Nat) : List (Bool × Bool) :=
  toShiftIr ++ exitShift (List.replicate irLength true) ++ toShiftDr

/-- The data vector of the bypass probes: the words, bit 0 first, and one more bit (R268). -/
def bypassDrVector (values : List Word) : List (Bool × Bool) := exitShift (values.flatMap wordBits ++ [false])

/-! ## The probes -/

/-- DeviceIdentity, which the probes of a known device need (R270, log entry 34). -/
def needIdentity (s : State) : Res DeviceIdentity :=
  match s.identity with
  | some d => .ok d s
  | none => .refused .noIdentity

/-- `P.PROBE_IDCODE` (R262). -/
def probeIdcode (s : State) : Res Word :=
  (needHandle s).bind fun _ s1 =>
  (needIdentity s1).bind fun d s2 =>
  (shiftPairs (idcodeVector d.irLength d.idCommand) s2).bind fun cap s3 => .ok (windowAt cap (14 + d.irLength)) s3

/-- `P.SCAN_CHAIN` (R264). -/
def scanChain (s : State) : Res Word :=
  (shiftPairs scanVector s).bind fun cap s1 => .ok (windowAt cap 9) s1

/-- `P.PROBE_BYPASS_VEC` (R268); no payload word is `refuse`. -/
def probeBypassVec (values : List Word) (s : State) : Res (List Word) :=
  (needHandle s).bind fun _ s1 =>
  (needIdentity s1).bind fun d s2 =>
    if values = [] then .refused .emptyPayload
    else
      (shiftPairs (bypassIrVector d.irLength) s2).bind fun _ s3 =>
      (shiftPairs (bypassDrVector values) s3).bind fun cap s4 =>
        .ok ((List.range values.length).map fun j => windowAt cap (32 * j + 1)) s4

/-- `DeviceCatalog.lookup` (R261): the first record whose idcode is the full value probed. -/
def lookup (c : Config) (id : Word) : Option DeviceIdentity := c.catalog.find? fun d => decide (d.idcode = id)

/-- The sweep of `P.DETECT` over the timing values (R266): the first recognised idcode fixes DeviceIdentity; a full
sweep with no match raises DetectionFailure (R312). -/
def detectSweep : List Nat → State → Res Unit
  | [], s => raise .detectionFailure s
  | tp :: rest, s =>
    (setTimingParam tp s).bind fun _ s1 =>
    (scanChain s1).bind fun id s2 =>
      match lookup s2.cfg id with
      | some d => .ok () (s2.setIdentity (some { d with idcode := id }))
      | none => detectSweep rest s2

/-- The slowest divisor of the backend (R266, R26). -/
def slowestDivisor (c : Config) : Handle → Nat
  | .mmio _ => c.divMax
  | .usb _ => c.usbDivMax

/-- `TP_MAX`: DELAY_MAX on MMIO, 1 on USB (R266). -/
def tpMax (c : Config) : Handle → Nat
  | .mmio _ => c.delayMax
  | .usb _ => 1

/-- `P.DETECT` (R266); after a success a further one changes nothing (R42, log entry 21). -/
def detect (s : State) : Res Unit :=
  (needHandle s).bind fun h s1 =>
    match s1.identity with
    | some _ => .ok () s1
    | none =>
      (setClockDivisor (slowestDivisor s1.cfg h) s1).bind fun _ s2 =>
        detectSweep (List.range (tpMax s2.cfg h + 1)) s2

/-! ## The operations -/

/-- The caller's result of a probe of one word. -/
def giveProbed (w : Word) (s : State) : State := s.setRet (.word w)

/-- The caller's result of P.PROBE_BYPASS: word 0 of the vector form's answer (R267). -/
def giveFirst (ws : List Word) (s : State) : State := s.setRet (.word (ws.headD 0))

/-- The caller's result of a probe of several words. -/
def giveWords (ws : List Word) (s : State) : State := s.setRet (.words ws)

/-- The caller's result of P.DETECT: nothing (R266). -/
def giveDetected (_ : Unit) (s : State) : State := s.setRet .none

/-- P.PROBE_IDCODE (R262). -/
def execPProbeIdcode (s : State) : Host.Outcome State Fault Refusal := (probeIdcode s).out giveProbed

/-- P.SCAN_CHAIN (R264). -/
def execPScanChain (s : State) : Host.Outcome State Fault Refusal := (scanChain s).out giveProbed

/-- P.DETECT (R266). -/
def execPDetect (s : State) : Host.Outcome State Fault Refusal := (detect s).out giveDetected

/-- P.PROBE_BYPASS (R267). -/
def execPProbeBypass (value : Word) (s : State) : Host.Outcome State Fault Refusal :=
  (probeBypassVec [value] s).out giveFirst

/-- P.PROBE_BYPASS_VEC (R268). -/
def execPProbeBypassVec (values : List Word) (s : State) : Host.Outcome State Fault Refusal :=
  (probeBypassVec values s).out giveWords

end Sys2Proof.Machine
end

