-- ==== Sys2Proof/Machine/Tap.lean ====
section
/-! DEFINITION. The target's operations: J.TCK in each of the sixteen states, J.IDCODE, J.BYPASS
(`41_tap_fsm.md` R151 to R171). -/

namespace Sys2Proof.Machine

/-- Every TAP of the chain takes part in a cycle of the operation for state `x`: it is in that state, or its state is
unspecified (R94, log entry 13). -/
def tapsIn (x : TapState) (ts : List Tap) : Bool := ts.all fun t => !t.known || decide (t.state = x)

/-- One `TapCycle(tms, tdi)` of a target in state `x` (R151, R173): the operation a TAP state selects. That such a call
clocks the target of an instance whose engine is idle, whatever the operating point, is the model's DESIGN CHOICE (log
entry 41): R90 lists J.TCK as an operation, R191 lets TCK run in `EngineRun` alone. -/
def tckIn (x : TapState) (tms tdi : Bool) (s : State) : Res (Option Bool) :=
  (needTarget s).bind fun _ s1 =>
    match s1.target with
    | .loopback _ => .refused .noTarget
    | .chain ts =>
      if tapsIn x ts then
        match chainCycle s1.draws tms 0 tdi ts with
        | none => .refused .reservedTapInstruction
        | some (ts', o) => .ok o ((s1.setTarget (.chain ts')).setDraws (s1.draws + 1))
      else .refused .tapStateMismatch

/-- A TAP's current instruction becomes `code`; in Test-Logic-Reset the reset instruction stays (R152). -/
def Tap.latch (t : Tap) (code : Bits) : Tap :=
  if t.known && decide (t.state = .testLogicReset) then t else { t with instr := code }

/-- Every TAP's current instruction becomes its own code `f` (log entry 12). -/
def latchCode (f : TapParams → Bits) (s : State) : Res Unit :=
  (needTarget s).bind fun _ s1 =>
    match s1.target with
    | .loopback _ => .refused .noTarget
    | .chain ts => .ok () (s1.setTarget (.chain (ts.map fun t => t.latch (f t.par))))

/-- The caller's result of a cycle: the TDO of the cycle, none where it is undefined (R94, R151). -/
def giveTdo (o : Option Bool) (s : State) : State := s.setRet (.tdo o)

/-- The caller's result of an operation that returns nothing. -/
def giveNothing (_ : Unit) (s : State) : State := s.setRet .none

/-- J.TCK in state Test-Logic-Reset (R152). -/
def execJTckTestLogicReset (tms tdi : Bool) (s : State) : Host.Outcome State Fault Refusal :=
  (tckIn .testLogicReset tms tdi s).out giveTdo

/-- J.TCK in state Run-Test/Idle (R153). -/
def execJTckRunTestIdle (tms tdi : Bool) (s : State) : Host.Outcome State Fault Refusal :=
  (tckIn .runTestIdle tms tdi s).out giveTdo

/-- J.TCK in state Select-DR-Scan (R154). -/
def execJTckSelectDrScan (tms tdi : Bool) (s : State) : Host.Outcome State Fault Refusal :=
  (tckIn .selectDrScan tms tdi s).out giveTdo

/-- J.TCK in state Capture-DR (R155). -/
def execJTckCaptureDr (tms tdi : Bool) (s : State) : Host.Outcome State Fault Refusal :=
  (tckIn .captureDr tms tdi s).out giveTdo

/-- J.TCK in state Shift-DR (R156). -/
def execJTckShiftDr (tms tdi : Bool) (s : State) : Host.Outcome State Fault Refusal :=
  (tckIn .shiftDr tms tdi s).out giveTdo

/-- J.TCK in state Exit1-DR (R157). -/
def execJTckExit1Dr (tms tdi : Bool) (s : State) : Host.Outcome State Fault Refusal :=
  (tckIn .exit1Dr tms tdi s).out giveTdo

/-- J.TCK in state Pause-DR (R158). -/
def execJTckPauseDr (tms tdi : Bool) (s : State) : Host.Outcome State Fault Refusal :=
  (tckIn .pauseDr tms tdi s).out giveTdo

/-- J.TCK in state Exit2-DR (R159). -/
def execJTckExit2Dr (tms tdi : Bool) (s : State) : Host.Outcome State Fault Refusal :=
  (tckIn .exit2Dr tms tdi s).out giveTdo

/-- J.TCK in state Update-DR (R160). -/
def execJTckUpdateDr (tms tdi : Bool) (s : State) : Host.Outcome State Fault Refusal :=
  (tckIn .updateDr tms tdi s).out giveTdo

/-- J.TCK in state Select-IR-Scan (R161). -/
def execJTckSelectIrScan (tms tdi : Bool) (s : State) : Host.Outcome State Fault Refusal :=
  (tckIn .selectIrScan tms tdi s).out giveTdo

/-- J.TCK in state Capture-IR (R162). -/
def execJTckCaptureIr (tms tdi : Bool) (s : State) : Host.Outcome State Fault Refusal :=
  (tckIn .captureIr tms tdi s).out giveTdo

/-- J.TCK in state Shift-IR (R163). -/
def execJTckShiftIr (tms tdi : Bool) (s : State) : Host.Outcome State Fault Refusal :=
  (tckIn .shiftIr tms tdi s).out giveTdo

/-- J.TCK in state Exit1-IR (R164). -/
def execJTckExit1Ir (tms tdi : Bool) (s : State) : Host.Outcome State Fault Refusal :=
  (tckIn .exit1Ir tms tdi s).out giveTdo

/-- J.TCK in state Pause-IR (R165). -/
def execJTckPauseIr (tms tdi : Bool) (s : State) : Host.Outcome State Fault Refusal :=
  (tckIn .pauseIr tms tdi s).out giveTdo

/-- J.TCK in state Exit2-IR (R166). -/
def execJTckExit2Ir (tms tdi : Bool) (s : State) : Host.Outcome State Fault Refusal :=
  (tckIn .exit2Ir tms tdi s).out giveTdo

/-- J.TCK in state Update-IR (R167). -/
def execJTckUpdateIr (tms tdi : Bool) (s : State) : Host.Outcome State Fault Refusal :=
  (tckIn .updateIr tms tdi s).out giveTdo

/-- J.IDCODE: the current instruction is `idCommand` (R170, log entry 12). -/
def execJIdcode (s : State) : Host.Outcome State Fault Refusal :=
  (latchCode TapParams.idcodeCode s).out giveNothing

/-- J.BYPASS: the current instruction is all ones (R171, log entry 12). -/
def execJBypass (s : State) : Host.Outcome State Fault Refusal :=
  (latchCode TapParams.bypassCode s).out giveNothing

end Sys2Proof.Machine
end

