-- ==== Sys2Proof/Machine/Usb.lean ====
section
/-! DEFINITION. The commands of the MPSSE engine and the host's flush (`43_mpsse_assembler.md` R222 to R225, R240),
issued one by one: the adapter executes the command at once, its response bytes join the response stream. -/

namespace Sys2Proof.Machine

/-- The caller's result of a command: nothing (its response bytes are in the response stream). -/
def giveSent (_ : Unit) (s : State) : State := s.setRet .none

/-- U.BYTE_SHIFT (R222). -/
def execUByteShift (e : Bool) (d : List Byte) (s : State) : Host.Outcome State Fault Refusal :=
  ((needUsb s).bind fun _ s1 => adapterByteShift e d s1).out giveSent

/-- U.BIT_SHIFT (R223). -/
def execUBitShift (e : Bool) (r : Nat) (d : Byte) (s : State) : Host.Outcome State Fault Refusal :=
  ((needUsb s).bind fun _ s1 => adapterBitShift e r d s1).out giveSent

/-- U.TMS_SHIFT (R224, R100); the host's copy of the level follows what it emits (R50, R226, log entry 25). -/
def execUTmsShift (e : Bool) (r : Nat) (b : Byte) (s : State) : Host.Outcome State Fault Refusal :=
  ((needUsb s).bind fun _ s1 =>
    adapterTmsShift e r b (s1.setUsbHost { s1.usbHost with tmsLevel := some (b.getLsbD (r - 1)) })).out giveSent

/-- U.SET_DIVISOR (R225). -/
def execUSetDivisor (div : Half) (s : State) : Host.Outcome State Fault Refusal :=
  ((needUsb s).bind fun _ s1 => adapterSetDivisor div s1).out giveSent

/-- U.FLUSH (R240). -/
def execUFlush (s : State) : Host.Outcome State Fault Refusal :=
  ((needUsb s).bind fun _ s1 => usbFlush s1).out giveSent

end Sys2Proof.Machine
end

