-- ==== Sys2Proof/Machine/Dispatch.lean ====
section
/-! DEFINITION. One arm for each operation of the table. -/

namespace Sys2Proof.Machine

def exec (i : Instr) (s : State) : Host.Outcome State Fault Refusal :=
  match i with
  | .tOpen p => Sys2Proof.Machine.execTOpen p s
  | .tShift n buf => Sys2Proof.Machine.execTShift n buf s
  | .tSetClockDivisor v => Sys2Proof.Machine.execTSetClockDivisor v s
  | .tSetTimingParam v => Sys2Proof.Machine.execTSetTimingParam v s
  | .jTckTestLogicReset tms tdi => Sys2Proof.Machine.execJTckTestLogicReset tms tdi s
  | .jTckRunTestIdle tms tdi => Sys2Proof.Machine.execJTckRunTestIdle tms tdi s
  | .jTckSelectDrScan tms tdi => Sys2Proof.Machine.execJTckSelectDrScan tms tdi s
  | .jTckCaptureDr tms tdi => Sys2Proof.Machine.execJTckCaptureDr tms tdi s
  | .jTckShiftDr tms tdi => Sys2Proof.Machine.execJTckShiftDr tms tdi s
  | .jTckExit1Dr tms tdi => Sys2Proof.Machine.execJTckExit1Dr tms tdi s
  | .jTckPauseDr tms tdi => Sys2Proof.Machine.execJTckPauseDr tms tdi s
  | .jTckExit2Dr tms tdi => Sys2Proof.Machine.execJTckExit2Dr tms tdi s
  | .jTckUpdateDr tms tdi => Sys2Proof.Machine.execJTckUpdateDr tms tdi s
  | .jTckSelectIrScan tms tdi => Sys2Proof.Machine.execJTckSelectIrScan tms tdi s
  | .jTckCaptureIr tms tdi => Sys2Proof.Machine.execJTckCaptureIr tms tdi s
  | .jTckShiftIr tms tdi => Sys2Proof.Machine.execJTckShiftIr tms tdi s
  | .jTckExit1Ir tms tdi => Sys2Proof.Machine.execJTckExit1Ir tms tdi s
  | .jTckPauseIr tms tdi => Sys2Proof.Machine.execJTckPauseIr tms tdi s
  | .jTckExit2Ir tms tdi => Sys2Proof.Machine.execJTckExit2Ir tms tdi s
  | .jTckUpdateIr tms tdi => Sys2Proof.Machine.execJTckUpdateIr tms tdi s
  | .jIdcode => Sys2Proof.Machine.execJIdcode s
  | .jBypass => Sys2Proof.Machine.execJBypass s
  | .mWrLength v => Sys2Proof.Machine.execMWrLength v s
  | .mWrTms v => Sys2Proof.Machine.execMWrTms v s
  | .mWrTdi v => Sys2Proof.Machine.execMWrTdi v s
  | .mWrStart => Sys2Proof.Machine.execMWrStart s
  | .mRdStatus => Sys2Proof.Machine.execMRdStatus s
  | .mRdTdo => Sys2Proof.Machine.execMRdTdo s
  | .mWrClkdiv v => Sys2Proof.Machine.execMWrClkdiv v s
  | .mWrDelay v => Sys2Proof.Machine.execMWrDelay v s
  | .uByteShift e d => Sys2Proof.Machine.execUByteShift e d s
  | .uBitShift e r d => Sys2Proof.Machine.execUBitShift e r d s
  | .uTmsShift e r b => Sys2Proof.Machine.execUTmsShift e r b s
  | .uSetDivisor div => Sys2Proof.Machine.execUSetDivisor div s
  | .uFlush => Sys2Proof.Machine.execUFlush s
  | .pProbeIdcode => Sys2Proof.Machine.execPProbeIdcode s
  | .pScanChain => Sys2Proof.Machine.execPScanChain s
  | .pDetect => Sys2Proof.Machine.execPDetect s
  | .pProbeBypass value => Sys2Proof.Machine.execPProbeBypass value s
  | .pProbeBypassVec values => Sys2Proof.Machine.execPProbeBypassVec values s

end Sys2Proof.Machine
end

