-- ==== Sys2Proof/Machine/Step.lean ====
section
/-! DEFINITION. The step, and the placing of a table word where it fetches. -/

namespace Sys2Proof.Machine

/-- The host's part of a step: it takes its caller's next operation, or its read of another register (U37); with none it
waits. -/
def hostTurn (s : State) : Host.Outcome State Fault Refusal :=
  match fetchCall s with
  | .idle => .next s
  | .op i rest => exec i (s.setCalls rest)
  | .readBack rest => (mmioReadBack (s.setCalls rest)).out giveWord
  | .unissued rest => .next (s.setCalls rest)
  | .refuse r => .refused r

/-- One step (log entries 1, 8, 33): the devices move, then the host executes one operation. A host that is stuck in a
wait stays stuck (R350, R351). -/
def step (s : State) : Host.Outcome State Fault Refusal :=
  match s.host.phase with
  | .stuckBusyPoll => .next s
  | .stuckRead => .next s
  | .ready =>
    match deviceTurn s with
    | .ok _ s1 => hostTurn s1
    | .stuck s1 => .next s1
    | .fault f => .fault f
    | .refused r => .refused r

/-- `s` with a table word as the caller's next operation, and with what that operation needs to run: an instance
(of the engine the operation belongs to), and for a TCK cycle a target in the state that selects it (log entry 27). -/
def State.withFetchWord (s : State) (nbits w : Nat) : State :=
  State.prepared (s.setCalls (tableBytes nbits w)) (decodeTableWord nbits w)

end Sys2Proof.Machine
end

