-- ==== Sys2Proof/Machine/Calibration.lean ====
section
/-! DEFINITION. The calibration software (`45_host_calibration.md`): host programs over the setters and the probes, no
operation of the table (log entry 26). They see the hardware only as pass or fail. -/

namespace Sys2Proof.Machine

/-! ## The table (R281, R282) -/

/-- `clear()`. -/
def tableClear (s : State) : State := s.setTable []

/-- `append(p)`: insertion order kept. -/
def tableAppend (p : CalibrationPoint) (s : State) : State := s.setTable (s.table ++ [p])

/-- `remove(i)`. -/
def tableRemove (i : Nat) (s : State) : State := s.setTable (s.table.eraseIdx i)

/-- Ids `k, k+1, ...` given in order. -/
def renumber : Nat → List CalibrationPoint → List CalibrationPoint
  | _, [] => []
  | k, p :: ps => { p with id := k } :: renumber (k + 1) ps

/-- `finalize()`: ids dense and unique. -/
def tableFinalize (s : State) : State := s.setTable (renumber 0 s.table)

/-- The later point only where it is strictly faster: the first of equals stays (R282). -/
def fasterOf (best : Option CalibrationPoint) (p : CalibrationPoint) : Option CalibrationPoint :=
  match best with
  | none => some p
  | some b => if b.clockFrequencyHz < p.clockFrequencyHz then some p else some b

/-- `getItemByMaxFrequency()` (R282); none on an empty table. -/
def getItemByMaxFrequency (items : List CalibrationPoint) : Option CalibrationPoint := items.foldl fasterOf none

/-! ## The frequency laws and derived figures -/

/-- `clockFrequencyHz` on MMIO (`60_exceptions.md` R323). -/
def mmioHz (c : Config) (div : Nat) : Nat := tckHz c.baseClockHz div

/-- `clockFrequencyHz` on USB (R324). -/
def usbHz (c : Config) (div : Nat) : Nat := tckHz c.usbBaseClockHz div

/-- `eyeWidthPercent`, under the reading `periodInDelayUnits = (div + 1) * 2`, as an exact fraction (R293). -/
def eyeWidth (count div : Nat) : Fraction := { num := count * 100, den := (div + 1) * 2 }

/-! ## One point (R284, R299) -/

/-- Sets an operating point: the divisor, then the timing parameter (R299, R357). -/
def applyPoint (div tp : Nat) (s : State) : Res Unit :=
  (setClockDivisor div s).bind fun _ s1 => setTimingParam tp s1

/-- The timing parameter a stored value stands for (R281). -/
def TimingValue.param : TimingValue → Nat
  | .delay d => d
  | .edge e => e.toNat

/-- `Probe(div, d)`: by the reference idcode, or by a free 32-bit value through BYPASS (R284). -/
def probePoint (byIdcode : Bool) (div tp : Nat) (s : State) : Res Bool :=
  (applyPoint div tp s).bind fun _ s1 =>
    if byIdcode then
      (needIdentity s1).bind fun d s2 =>
      (probeIdcode s2).bind fun w s3 => .ok (decide (w = d.idcode)) s3
    else
      let r := Config.freeWord s1.draws 0
      (probeBypassVec [r] (s1.setDraws (s1.draws + 1))).bind fun ws s2 => .ok (decide (ws = [r])) s2

/-! ## The MMIO calibrator (R283 to R293) -/

/-- The choices the spec leaves to whoever runs the MMIO calibrator (R283, R284, R291, R301). -/
structure MmioCalibration where
  hysteresis : Nat
  startAtHalf : Bool
  byIdcode : Bool
  withEyeWidth : Bool
  hardenPasses : Option Nat
  quickStop : Option Nat
deriving DecidableEq, Repr

/-- The window being recorded in the inner sweep (R285, R288). -/
structure Window where
  recording : Bool
  run : Nat
  start : Nat
  count : Nat
  ended : Bool
deriving DecidableEq, Repr

/-- No pass seen yet. -/
def Window.empty : Window := { recording := false, run := 0, start := 0, count := 0, ended := false }

/-- One delay's result enters the window (R288): recording begins after `max(h, 1)` passes in a row, its start
backdated to the first of them; a fail ends a recording, or drops a run too short. -/
def Window.push (h d : Nat) (ok : Bool) (w : Window) : Window :=
  if ok then
    let run := w.run + 1
    if !w.recording && decide (max h 1 ≤ run) then
      { w with run := run, recording := true, start := d - (run - 1), count := run }
    else if w.recording then { w with run := run, count := run }
    else { w with run := run }
  else if w.recording then { w with ended := true }
  else { w with run := 0 }

/-- The inner sweep over the delays (R285). That it stops probing once its window has ended is the model's DESIGN CHOICE
(log entry 42): R285 and R288 leave it to the implementation. -/
def innerSweep (k : MmioCalibration) (div : Nat) : List Nat → Window → State → Res Window
  | [], w, s => .ok w s
  | d :: ds, w, s =>
    if w.ended then .ok w s
    else (probePoint k.byIdcode div d s).bind fun ok s1 => innerSweep k div ds (w.push k.hysteresis d ok) s1

/-- The delays of the inner sweep: from the starting offset up to DELAY_MAX (R283). -/
def delaysFrom (k : MmioCalibration) (delayMax div : Nat) : List Nat :=
  (List.range (delayMax + 1)).filter fun d => decide ((if k.startAtHalf then div / 2 else 0) ≤ d)

/-- The acceptance gate (R286). -/
def Window.accepted (w : Window) (div : Nat) : Bool := w.recording && decide (div / 2 ≤ w.count)

/-- The point an accepted window appends (R286, R288). -/
def Window.point (k : MmioCalibration) (c : Config) (id div : Nat) (w : Window) : CalibrationPoint :=
  { id := id
    clockDivisor := div
    clockDelayOrEdge := .delay w.start
    clockFrequencyHz := mmioHz c div
    validPointCount := w.count
    eyeWidthPercent := if k.withEyeWidth then some (eyeWidth w.count div) else none }

/-- The outer sweep, low frequency first; it ends at the first divisor without an accepted window (R287, R313). -/
def outerSweep (k : MmioCalibration) : List Nat → State → Res Unit
  | [], s => .ok () s
  | div :: divs, s =>
    (innerSweep k div (delaysFrom k s.cfg.delayMax div) Window.empty s).bind fun w s1 =>
      if w.accepted div then outerSweep k divs (tableAppend (w.point k s1.cfg s1.table.length div) s1)
      else raise .calibrationEmpty s1

/-- WalkingOne, WalkingZero and GrowingZero (R292). -/
def walkingOne : List Word := (List.range 32).map fun k => 1#32 <<< k
/-- WalkingZero (R292). -/
def walkingZero : List Word := (List.range 32).map fun k => ~~~(1#32 <<< k)
/-- GrowingZero (R292). -/
def growingZero : List Word := (List.range 32).map fun k => 0xFFFFFFFF#32 <<< (k + 1)

/-- Replays patterns until one comes back different (R291). -/
def replayPatterns : List (List Word) → State → Res Bool
  | [], s => .ok true s
  | pat :: pats, s =>
    (probeBypassVec pat s).bind fun ws s1 => if ws = pat then replayPatterns pats s1 else .ok false s1

/-- The patterns of a candidate: the three, once for each pass (R291). -/
def hardenPatterns (passes : Nat) : List (List Word) :=
  (List.replicate passes [walkingZero, growingZero, walkingOne]).flatten

/-- Tries candidates in table order, at most the quick-mode count of them, and answers those to keep; a mismatch raises
HardeningRejected (R291, R314). -/
def hardenItems (passes : Nat) : Option Nat → List CalibrationPoint → State → Res (List CalibrationPoint)
  | _, [], s => .ok [] s
  | some 0, ps, s => .ok ps s
  | cap, p :: ps, s =>
    (applyPoint p.clockDivisor p.clockDelayOrEdge.param s).bind fun _ s1 =>
    (replayPatterns (hardenPatterns passes) s1).bind fun good s2 =>
      (if good then .ok () s2 else raise .hardeningRejected s2).bind fun _ s3 =>
      (hardenItems passes (cap.map fun k => k - 1) ps s3).bind fun kept s4 =>
        .ok (if good then p :: kept else kept) s4

/-- `Harden(table)` (R291). -/
def harden (passes : Nat) (quickStop : Option Nat) (s : State) : Res Unit :=
  (hardenItems passes quickStop s.table s).bind fun kept s1 => .ok () (s1.setTable kept)

/-- The optional hardening phase (R288, R291). -/
def hardenIf (passes : Option Nat) (quickStop : Option Nat) (s : State) : Res Unit :=
  match passes with
  | none => .ok () s
  | some k => harden k quickStop s

/-- `CalibrateMmio` (R288), on the MMIO backend (R280). -/
def calibrateMmio (k : MmioCalibration) (s : State) : Res (List CalibrationPoint) :=
  (needMmio s).bind fun _ s0 =>
  (outerSweep k (List.range (s0.cfg.divMax + 1)).reverse (tableClear s0)).bind fun _ s1 =>
    (hardenIf k.hardenPasses k.quickStop s1).bind fun _ s2 =>
      .ok (tableFinalize s2).table (tableFinalize s2)

/-! ## The USB calibrator (R295, R296) -/

/-- The exact frequency of a divisor lies within the bounds (R296, before any truncation). -/
def usbWithin (c : Config) (minFreq maxFreq div : Nat) : Bool :=
  decide (minFreq * ((div + 1) * 2) ≤ c.usbBaseClockHz) && decide (c.usbBaseClockHz ≤ maxFreq * ((div + 1) * 2))

/-- `UsbDivisorRange` (R296): every divisor whose frequency lies within the bounds, the largest first. -/
def usbDivisors (c : Config) (minFreq maxFreq : Nat) : List Nat :=
  ((List.range (c.usbDivMax + 1)).filter (usbWithin c minFreq maxFreq)).reverse

/-- The idcode probe repeated: every repetition matches the reference, or the combination fails (R295). -/
def repeatIdcode : Nat → State → Res Bool
  | 0, s => .ok true s
  | k + 1, s =>
    (needIdentity s).bind fun d s1 =>
    (probeIdcode s1).bind fun w s2 => if w = d.idcode then repeatIdcode k s2 else .ok false s2

/-- One combination of the USB sweep (R295); `validPointCount` is free. -/
def usbCombination (loop div : Nat) (edge : Bool) (s : State) : Res Unit :=
  (applyPoint div edge.toNat s).bind fun _ s1 =>
  (repeatIdcode loop s1).bind fun ok s2 =>
    if ok then
      .ok () ((tableAppend
        { id := s2.table.length
          clockDivisor := div
          clockDelayOrEdge := .edge edge
          clockFrequencyHz := usbHz s2.cfg div
          validPointCount := Config.freeCount s2.draws
          eyeWidthPercent := none } s2).setDraws (s2.draws + 1))
    else .ok () s2

/-- The USB sweep over its combinations (R295). -/
def usbSweep (loop : Nat) : List (Nat × Bool) → State → Res Unit
  | [], s => .ok () s
  | (div, e) :: rest, s => (usbCombination loop div e s).bind fun _ s1 => usbSweep loop rest s1

/-- The choices the spec leaves to whoever runs the USB calibrator (R295, R301). -/
structure UsbCalibration where
  minFreq : Nat
  maxFreq : Nat
  loop : Nat
  bothEdges : Bool
deriving DecidableEq, Repr

/-- `CalibrateUsb` (R295), on the USB backend (R280). -/
def calibrateUsb (k : UsbCalibration) (s : State) : Res (List CalibrationPoint) :=
  (needUsb s).bind fun _ s0 =>
    let edges := if k.bothEdges then [false, true] else [s0.usbHost.edge]
    let points := (usbDivisors s0.cfg k.minFreq k.maxFreq).flatMap fun div => edges.map fun e => (div, e)
    (usbSweep k.loop points (tableClear s0)).bind fun _ s1 => .ok (tableFinalize s1).table (tableFinalize s1)

/-! ## The clock calibrator (R280) -/

/-- `ClockCalibrator`: which variant runs follows the backend (R280). -/
def calibrate (m : MmioCalibration) (u : UsbCalibration) (s : State) : Res (List CalibrationPoint) :=
  (needHandle s).bind fun h s1 =>
    match h with
    | .mmio _ => calibrateMmio m s1
    | .usb _ => calibrateUsb u s1

end Sys2Proof.Machine
end

