-- ==== Sys2Proof/Safety.lean ====
section
/-! DEFINITION. What the claims call a sound state, a state ready for a shift, and the vocabulary of the claims. -/

namespace Sys2Proof.Machine

/-! ## Invariants -/

/-- The widths of a TAP's registers (`10_state.md` R37 to R39). -/
def Tap.widthsOk (t : Tap) : Bool :=
  decide (t.instr.length = t.par.irLength) && decide (t.irSr.length = t.par.irLength) && decide (t.drSr.length ≤ 32)

/-- Every TAP of the target has registers of their widths. -/
def State.tapsOk (s : State) : Bool :=
  match s.target with
  | .chain ts => ts.all Tap.widthsOk
  | .loopback _ => true

/-- While in Test-Logic-Reset a TAP's instruction is the reset instruction (`41_tap_fsm.md` R152). -/
def Tap.resetOk (t : Tap) : Bool :=
  !t.known || !decide (t.state = .testLogicReset) || decide (t.instr = t.par.resetCode)

/-- Every TAP of the target in Test-Logic-Reset has the reset instruction. -/
def State.resetInstrOk (s : State) : Bool :=
  match s.target with
  | .chain ts => ts.all Tap.resetOk
  | .loopback _ => true

/-- The sequencer's counter is in `0..32`; while busy, LENGTH is legal and the counter has not passed it (R21, R28). -/
def State.sequencerOk (s : State) : Bool :=
  decide (s.mmio.count ≤ 32)
    && (!s.mmio.busy || (decide (1 ≤ s.mmio.length.toNat) && decide (s.mmio.length.toNat ≤ 32)
      && decide (s.mmio.count ≤ s.mmio.length.toNat)))

/-- The host's copy of the TMS level, where it is known, is the adapter's level (R50). -/
def State.levelsAgree (s : State) : Bool :=
  decide (s.usbHost.tmsLevel = none ∨ s.usbHost.tmsLevel = some s.usb.tms)

/-- The invariant of R50, the adapter having executed everything sent to it; between calls there is no batch
(R33, R34). -/
def State.levelOk (s : State) : Bool :=
  decide (s.usb.cmdq = []) && s.levelsAgree
    && (decide (s.host.phase = .stuckRead) || (decide (s.usbHost.out = []) && decide (s.usbHost.desc = [])))

/-- DeviceIdentity is present only in an instance (R42, R43). -/
def State.identityOk (s : State) : Bool := s.identity.isNone || s.handle.isSome

/-- The MMIO operating point is a legal one: CLKDIV in `0..DIV_MAX`, DELAY in `0..DELAY_MAX` (R26, R27). -/
def State.legalPoint (s : State) : Bool :=
  decide (s.mmio.clkdiv.toNat ≤ s.cfg.divMax) && decide (s.mmio.delay.toNat ≤ s.cfg.delayMax)

/-! ## Readiness -/

/-- A working MMIO engine between chunks: idle, going to finish every chunk (R350), and a busy-poll that has no bound or
one above all the busy reads that can come (R204). -/
def State.mmioReady (s : State) : Prop :=
  (∃ i, s.handle = some (.mmio i)) ∧ s.mmio.busy = false ∧ s.env.engineAlive = true
    ∧ (s.cfg.pollLimit = 0 ∨ s.env.pace.length < s.cfg.pollLimit)

/-- How many reads of STATUS show busy while the sequencer makes `moves` more moves: one for each look of the host
before it is done (R196). -/
def busyReads : List Nat → Nat → Nat
  | [], _ => 0
  | k :: ks, moves => if k < moves then busyReads ks (moves - k) + 1 else 0

/-- No transfer of the host to come ends in an error (R317 (e)). -/
def State.transfersOk (s : State) : Prop := Transfer.error ∉ s.env.delivery ∧ false ∉ s.env.writes

/-- A working USB adapter between calls: nothing in flight (R35), the levels agree (R50), every byte asked for is
delivered in the end (R351), no transfer fails (R317 (e)). -/
def State.usbReady (s : State) : Prop :=
  (∃ a, s.handle = some (.usb a)) ∧ s.usb.cmdq = [] ∧ s.usb.rspq = [] ∧ s.levelsAgree = true ∧ s.env.usbAlive = true
    ∧ s.transfersOk

/-- An instance whose engine, of either kind, completes shifts. -/
def State.shiftReady (s : State) : Prop := s.cfg.wellFormed = true ∧ (s.mmioReady ∨ s.usbReady)

/-- The operating point of the next shift (R48). -/
def State.shiftPoint (s : State) : Nat × Nat :=
  match s.handle with
  | some (.usb _) => s.usbPoint s.usbHost.edge
  | _ => s.mmioPoint

/-- A shift can begin with this TAP wherever it is: no cycle is spent in Capture-DR or Shift-DR under an instruction
that selects no described register (R172). -/
def Tap.navigable (t : Tap) : Prop :=
  t.known = true → (t.state = .captureDr ∨ t.state = .shiftDr) → t.selected ≠ .undescribed

/-! ## Parameters -/

/-- What the target is made of: the constants of every TAP, or the loopback double's function (R10, R40, R46, R140). -/
def Target.constants : Target → List TapParams × Option LoopFn
  | .chain ts => (ts.map Tap.par, none)
  | .loopback f => ([], some f)

/-- The parameters of the machine (R46): the configuration, the catalog within it, the target's constants, the oracle
`Valid`, and the devices and engines the environment has. -/
def State.parameters (s : State) : Config × (List TapParams × Option LoopFn) × (Bool × List PointRange)
    × List Nat × List UsbAddress × Bool × Bool :=
  (s.cfg, s.target.constants, (s.env.allValid, s.env.validPoints), s.env.uioNodes, s.env.usbDevices,
    s.env.engineAlive, s.env.usbAlive)

/-! ## Frames -/

/-- What no shift, probe or setter touches of the instance and its caller. -/
def State.rest (s : State) : Config × Option Handle × List CalibrationPoint × List Byte :=
  (s.cfg, s.handle, s.table, s.calls)

/-- The state after one TCK cycle of a single TAP: the TAP, the TDO of the cycle, the next free value; all else as it
was. -/
def State.cycled (s : State) (t : Tap) (tdo : Option Bool) : State :=
  ((s.setTarget (.chain [t])).setRet (.tdo tdo)).setDraws (s.draws + 1)

/-- No error has ended the step and it has a meaning. -/
def runs (o : Host.Outcome State Fault Refusal) : Bool :=
  match o with
  | .next _ => true
  | .fault _ => false
  | .refused _ => false

end Sys2Proof.Machine
end

