-- ==== Sys2Proof/Certificates/Slice0/Obligations.lean ====
section
/-! DEFINITION. The statements for the provers. -/

open Sys2Proof Sys2Proof.Machine

/-- State.reset has no handle, no DeviceIdentity (isDetected false), an idle sequencer with counter 0, zero shadows,
empty batch, queues and table, usb.edge 0 and tmsLevel unknown. That reset stands before T.OPEN is the model's
choice (log entry 1). (R43, R47, R20.) -/
def Obligations.ResetPrecedesConstruction : Prop :=
  State.reset.handle = none ∧ State.reset.identity = none ∧ State.reset.isDetected = false
    ∧ State.reset.mmio.busy = false ∧ State.reset.mmio.count = 0
    ∧ State.reset.shadow = { len := 0, tms := 0, tdi := 0 }
    ∧ State.reset.usbHost = { edge := false, tmsLevel := none, out := [], desc := [], run := none }
    ∧ State.reset.usb.cmdq = [] ∧ State.reset.usb.rspq = [] ∧ State.reset.table = []

/-- There is no handle at reset. Before one exists every operation but T.OPEN is refused. A T.OPEN that can open its
device makes the handle of that device. No operation that gives a next state releases or changes a handle.
(R43.) -/
def Obligations.HandleOwnedForLife : Prop :=
  State.reset.handle = none
    ∧ (∀ (i : Instr) (s : State), s.handle = none → (∀ p, i ≠ .tOpen p) → exec i s = .refused .notOpen)
    ∧ (∀ (p : OpenParams) (s : State), s.handle = none → s.canOpen p = true →
        ∃ t, exec (.tOpen p) s = .next t ∧ t.handle = some (OpenParams.handle p))
    ∧ (∀ (i : Instr) (s t : State) (h : Handle), s.handle = some h → exec i s = .next t → t.handle = some h)

/-- Without a handle, and with the device there and the offset table valid, T.OPEN answers a next state with the
handle, an idle sequencer, zero shadows, edge 0, tmsLevel unknown, empty batch, queues and table, no identity;
every TAP is unspecified, its registers in their widths; the divisor and delay registers hold some legal value;
parameters, environment, diagnostics and the caller's operations are unchanged. (That an unspecified divisor or
delay is a legal one is log entry 3.) (R130, R47, R341, R26, R27, R31.) -/
def Obligations.OpenSetsDecidedValues : Prop :=
  ∀ (p : OpenParams) (s : State), s.handle = none → s.canOpen p = true →
    ∃ t, exec (.tOpen p) s = .next t
      ∧ t.handle = some (OpenParams.handle p)
      ∧ t.mmio.busy = false ∧ t.mmio.count = 0 ∧ t.shadow = { len := 0, tms := 0, tdi := 0 }
      ∧ t.usbHost = { edge := false, tmsLevel := none, out := [], desc := [], run := none }
      ∧ t.usb.cmdq = [] ∧ t.usb.rspq = [] ∧ t.host = HostSeq.idle
      ∧ t.identity = none ∧ t.isDetected = false ∧ t.table = []
      ∧ (∀ ts, t.target = .chain ts → ∀ u ∈ ts, u.known = false) ∧ t.tapsOk = true
      ∧ (s.cfg.wellFormed = true → t.mmio.clkdiv.toNat ≤ s.cfg.divMax ∧ t.mmio.delay.toNat ≤ s.cfg.delayMax
          ∧ t.usb.div.toNat ≤ s.cfg.usbDivMax)
      ∧ t.cfg = s.cfg ∧ t.env = s.env ∧ t.diags = s.diags ∧ t.calls = s.calls

/-- An operation ends in TransportOpenFailure exactly when it is a T.OPEN, no instance exists, and the device cannot
be opened or claimed or (on MMIO) the offset table fails its bounds check. (That a T.OPEN with an instance alive
is refused and never ends in this error is the model's choice, log entry 20.) (R130, R311, R66.) -/
def Obligations.OpenFailureOnlyAtConstruction : Prop :=
  ∀ (i : Instr) (s : State), exec i s = .fault .transportOpenFailure ↔
    ∃ p, i = .tOpen p ∧ s.handle = none
      ∧ (match p with
          | .mmio u => u ∉ s.env.uioNodes ∨ ∃ o ∈ s.cfg.offsets, o % 4 ≠ 0 ∨ s.cfg.regionBytes < o + 4
          | .usb a => a ∉ s.env.usbDevices)

/-- On an idle MMIO instance, T.SET_CLOCK_DIVISOR of a value in 0..DIV_MAX answers the state with CLKDIV at that
value, T.SET_TIMING_PARAM of a value in 0..DELAY_MAX the state with DELAY at that value; every other part of the
state is as before, and nothing is returned. (R135, R137, R201, R202.) -/
def Obligations.MmioSettersStoreInRange : Prop :=
  ∀ (s : State) (u : Nat) (v : Int), s.handle = some (.mmio u) → s.mmio.busy = false →
    (0 ≤ v → v ≤ s.cfg.divMax → exec (.tSetClockDivisor v) s =
        .next ((s.setMmio { s.mmio with clkdiv := BitVec.ofNat 32 v.toNat }).setRet .none))
    ∧ (0 ≤ v → v ≤ s.cfg.delayMax → exec (.tSetTimingParam v) s =
        .next ((s.setMmio { s.mmio with delay := BitVec.ofNat 32 v.toNat }).setRet .none))

/-- On MMIO a divisor outside 0..DIV_MAX, or a delay outside 0..DELAY_MAX, answers the same state with one
OutOfRangeParameter diagnostic more: no register is written, the previous value stays. On USB neither setter
emits a diagnostic. (R315.) -/
def Obligations.OutOfRangeParameterIsSoft : Prop :=
  (∀ (s : State) (u : Nat) (v : Int), s.handle = some (.mmio u) →
    ((v < 0 ∨ (s.cfg.divMax : Int) < v) → exec (.tSetClockDivisor v) s =
        .next ((s.setDiags (s.diags ++ [.outOfRangeParameter])).setRet .none))
    ∧ ((v < 0 ∨ (s.cfg.delayMax : Int) < v) → exec (.tSetTimingParam v) s =
        .next ((s.setDiags (s.diags ++ [.outOfRangeParameter])).setRet .none)))
  ∧ (∀ (s t : State) (a : UsbAddress) (v : Int), s.handle = some (.usb a) →
      (exec (.tSetClockDivisor v) s = .next t ∨ exec (.tSetTimingParam v) s = .next t) → t.diags = s.diags)

/-- On a USB instance with distinct command bytes and an empty command stream, and the next write transfer accepted,
T.SET_CLOCK_DIVISOR v answers the state with the adapter's divisor at max(0, min(v, USB_DIV_MAX)),
T.SET_TIMING_PARAM v the state with the edge 0 for v = 0 and 1 otherwise; no diagnostic, nothing else changes
but the environment's list of write transfers. (That a write transfer may fail, and that one accepted takes an
entry off that list, is the model's choice, log entry 9.) (R135, R136, R137.) -/
def Obligations.UsbSettersClamp : Prop :=
  ∀ (s : State) (a : UsbAddress) (v : Int), s.handle = some (.usb a) → s.cfg.wellFormed = true → s.usb.cmdq = [] →
    s.env.writes.head? ≠ some false →
    exec (.tSetClockDivisor v) s =
      .next (((s.setUsb { s.usb with div := BitVec.ofNat 16 (max 0 (min v s.cfg.usbDivMax)).toNat }).setEnv
        { s.env with writes := s.env.writes.tail }).setRet .none)
    ∧ exec (.tSetTimingParam v) s = .next ((s.setUsbHost { s.usbHost with edge := decide (v ≠ 0) }).setRet .none)

/-- With the sequencer idle and one TAP whose state is known, each J.TCK operation issued in its state answers the
state with the TAP in the successor that TMS selects, the action of the cycle done (Capture-DR loads the selected
register, Shift-DR shifts it one place toward bit 0 with TDI in at the top, entering Test-Logic-Reset sets the reset
instruction), TDO being bit 0 of the data shift stage in Shift-DR and undefined otherwise; nothing else changes. (That
a J.TCK call clocks the target of an idle instance, between the engine's runs and at every operating point, is the
model's choice, log entry 41.) (R177, R151, R152, R153, R154, R155, R156, R157, R158, R159, R160, R169.) -/
def Obligations.TckInDataColumn : Prop :=
  ∀ (s : State) (t : Tap) (tms tdi : Bool), s.handle.isSome = true → s.mmio.busy = false →
    s.target = .chain [t] → t.known = true →
    (t.state = .testLogicReset → exec (.jTckTestLogicReset tms tdi) s = .next (s.cycled
        (if tms then { t with instr := t.par.resetCode } else { t with state := .runTestIdle }) none))
    ∧ (t.state = .runTestIdle → exec (.jTckRunTestIdle tms tdi) s = .next (s.cycled
        { t with state := if tms then .selectDrScan else .runTestIdle } none))
    ∧ (t.state = .selectDrScan → exec (.jTckSelectDrScan tms tdi) s = .next (s.cycled
        { t with state := if tms then .selectIrScan else .captureDr } none))
    ∧ (t.state = .captureDr → t.par.hasIdcode = true → t.instr = t.par.idcodeCode →
        exec (.jTckCaptureDr tms tdi) s = .next (s.cycled
          { t with state := if tms then .exit1Dr else .shiftDr, drSr := wordBits t.par.idcodeValue } none))
    ∧ (t.state = .captureDr → (t.par.hasIdcode = true → t.instr ≠ t.par.idcodeCode) → t.instr = t.par.bypassCode →
        exec (.jTckCaptureDr tms tdi) s = .next (s.cycled
          { t with state := if tms then .exit1Dr else .shiftDr, drSr := [false] } none))
    ∧ (t.state = .shiftDr → t.selected ≠ .undescribed → exec (.jTckShiftDr tms tdi) s = .next (s.cycled
        { t with state := if tms then .exit1Dr else .shiftDr, drSr := (t.drSr ++ [tdi]).drop 1 } t.drSr.head?))
    ∧ (t.state = .exit1Dr → exec (.jTckExit1Dr tms tdi) s = .next (s.cycled
        { t with state := if tms then .updateDr else .pauseDr } none))
    ∧ (t.state = .pauseDr → exec (.jTckPauseDr tms tdi) s = .next (s.cycled
        { t with state := if tms then .exit2Dr else .pauseDr } none))
    ∧ (t.state = .exit2Dr → exec (.jTckExit2Dr tms tdi) s = .next (s.cycled
        { t with state := if tms then .updateDr else .shiftDr } none))
    ∧ (t.state = .updateDr → exec (.jTckUpdateDr tms tdi) s = .next (s.cycled
        { t with state := if tms then .selectDrScan else .runTestIdle } none))

/-- With the sequencer idle and one TAP whose state is known, each J.TCK operation issued in its state answers the
state with the TAP in the successor that TMS selects and the action done: Capture-IR loads IR_CAPTURE, Shift-IR shifts
with TDI in at the top and TDO bit 0, entering Update-IR makes the shift stage the current instruction, leaving
Select-IR-Scan with TMS 1 resets the instruction; nothing else changes. (That a J.TCK call clocks the target of an
idle instance, between the engine's runs and at every operating point, is the model's choice, log entry 41.) (R177,
R151, R161, R162, R163, R164, R165, R166, R167, R169, R152.) -/
def Obligations.TckInInstructionColumn : Prop :=
  ∀ (s : State) (t : Tap) (tms tdi : Bool), s.handle.isSome = true → s.mmio.busy = false →
    s.target = .chain [t] → t.known = true →
    (t.state = .selectIrScan → exec (.jTckSelectIrScan tms tdi) s = .next (s.cycled
        (if tms then { t with state := .testLogicReset, instr := t.par.resetCode }
          else { t with state := .captureIr }) none))
    ∧ (t.state = .captureIr → exec (.jTckCaptureIr tms tdi) s = .next (s.cycled
        { t with state := if tms then .exit1Ir else .shiftIr, irSr := bitsOfNat t.par.irLength t.par.irCapture } none))
    ∧ (t.state = .shiftIr → exec (.jTckShiftIr tms tdi) s = .next (s.cycled
        { t with state := if tms then .exit1Ir else .shiftIr, irSr := (t.irSr ++ [tdi]).drop 1 } t.irSr.head?))
    ∧ (t.state = .exit1Ir → exec (.jTckExit1Ir tms tdi) s = .next (s.cycled
        (if tms then { t with state := .updateIr, instr := t.irSr } else { t with state := .pauseIr }) none))
    ∧ (t.state = .pauseIr → exec (.jTckPauseIr tms tdi) s = .next (s.cycled
        { t with state := if tms then .exit2Ir else .pauseIr } none))
    ∧ (t.state = .exit2Ir → exec (.jTckExit2Ir tms tdi) s = .next (s.cycled
        (if tms then { t with state := .updateIr, instr := t.irSr } else { t with state := .shiftIr }) none))
    ∧ (t.state = .updateIr → exec (.jTckUpdateIr tms tdi) s = .next (s.cycled
        { t with state := if tms then .selectDrScan else .runTestIdle } none))

/-- With the sequencer idle and one TAP whose state is known and whose instruction is neither IDCODE nor BYPASS, J.TCK
in Capture-DR and in Shift-DR is refused; J.TCK in any other state answers a next state, among them the cycles that
latch such a value on entering Update-IR. (That a J.TCK call clocks the target of an idle instance, between the
engine's runs and at every operating point, is the model's choice, log entry 41.) (An idCommand that HAS_IDCODE false
makes no IDCODE, log entry 14, is not in this statement.) (R172.) -/
def Obligations.ReservedInstructionRefused : Prop :=
  ∀ (s : State) (t : Tap) (tms tdi : Bool), s.handle.isSome = true → s.mmio.busy = false →
    s.target = .chain [t] → t.known = true →
    t.instr ≠ t.par.idcodeCode → t.instr ≠ t.par.bypassCode →
    (t.state = .captureDr → exec (.jTckCaptureDr tms tdi) s = .refused .reservedTapInstruction)
    ∧ (t.state = .shiftDr → exec (.jTckShiftDr tms tdi) s = .refused .reservedTapInstruction)
    ∧ (∀ i : Instr, i.tck? = some (t.state, tms, tdi) → t.state ≠ .captureDr → t.state ≠ .shiftDr →
        ∃ u t', exec i s = .next u ∧ u.target = .chain [t'] ∧ t'.state = tapNext t.state tms
          ∧ (t'.state = .updateIr → t'.instr = t.irSr))

/-- With the sequencer idle, the model's operations J.IDCODE and J.BYPASS (log entry 12) answer the state with every
TAP's current instruction at its own idCommand, or all ones up to irLength; a TAP known to be in Test-Logic-
Reset keeps the reset instruction; nothing else changes. (R95, R170, R171, R152.) -/
def Obligations.InstructionLatch : Prop :=
  ∀ (s : State) (ts : List Tap), s.handle.isSome = true → s.mmio.busy = false → s.target = .chain ts →
    exec .jIdcode s = .next ((s.setTarget (.chain (ts.map fun t =>
        if t.known = true ∧ t.state = .testLogicReset then t
        else { t with instr := bitsOfNat t.par.irLength t.par.idCommand }))).setRet .none)
    ∧ exec .jBypass s = .next ((s.setTarget (.chain (ts.map fun t =>
        if t.known = true ∧ t.state = .testLogicReset then t
        else { t with instr := List.replicate t.par.irLength true }))).setRet .none)

/-- At a valid operating point, with one known TAP in Capture-DR under IDCODE, one cycle with TMS 0 and then 32
cycles with TMS 0 and TDI bits d capture, after the first bit, the bits of IDCODE_VALUE from bit 0 up; the data
register then holds d, still in Shift-DR. (R170, R155, R156.) -/
def Obligations.IdcodeShiftsOutBitZeroFirst : Prop :=
  ∀ (pt : Nat × Nat) (s : State) (t : Tap) (x : Bool) (d : Bits), s.env.isValid pt = true → s.target = .chain [t] →
    t.known = true → t.state = .captureDr → t.par.hasIdcode = true → t.instr = t.par.idcodeCode → d.length = 32 →
    ∃ b u, clockAll pt ((false, x) :: d.map fun b => (false, b)) s = .ok (b :: wordBits t.par.idcodeValue) u
      ∧ u.target = .chain [{ t with state := .shiftDr, drSr := d }]

/-- At a valid operating point, with one known TAP in Capture-DR under BYPASS, one cycle with TMS 0 and then Shift-
DR cycles with TDI bits d capture, after the first bit, a 0 followed by d without its last bit. (R171, R155,
R156, R359.) -/
def Obligations.BypassDelaysOneBit : Prop :=
  ∀ (pt : Nat × Nat) (s : State) (t : Tap) (x : Bool) (d : Bits), s.env.isValid pt = true → s.target = .chain [t] →
    t.known = true → t.state = .captureDr → t.instr = t.par.bypassCode →
    (t.par.hasIdcode = true → t.instr ≠ t.par.idcodeCode) →
    ∃ b u, clockAll pt ((false, x) :: d.map fun b => (false, b)) s = .ok (b :: (false :: d).take d.length) u
      ∧ u.target = .chain [{ t with state := .shiftDr, drSr := [(false :: d).getLast (by simp)] }]

/-- From each of the 16 states the successor under TMS 1, taken n times, is Test-Logic-Reset for the first time at
the n of R168: 0, 1, 2, 3, 4 or 5. (R168.) -/
def Obligations.FiveOnesReachReset : Prop :=
  (∀ x : TapState, (fun y => tapNext y true)^[5] x = .testLogicReset)
  ∧ (∀ x : TapState, ∀ n < 5, (fun y => tapNext y true)^[n] x = .testLogicReset →
      (match x with
        | .testLogicReset => 0
        | .selectIrScan => 1
        | .selectDrScan => 2
        | .runTestIdle | .updateDr | .updateIr => 3
        | .exit1Dr | .exit2Dr | .exit1Ir | .exit2Ir => 4
        | .captureDr | .shiftDr | .pauseDr | .captureIr | .shiftIr | .pauseIr => 5) ≤ n)
  ∧ (∀ x : TapState, (fun y => tapNext y true)^[match x with
        | .testLogicReset => 0
        | .selectIrScan => 1
        | .selectDrScan => 2
        | .runTestIdle | .updateDr | .updateIr => 3
        | .exit1Dr | .exit2Dr | .exit1Ir | .exit2Ir => 4
        | .captureDr | .shiftDr | .pauseDr | .captureIr | .shiftIr | .pauseIr => 5] x = .testLogicReset)

/-- On a working instance of either backend at a valid operating point, SHIFT 5 tms=1F tdi=00 answers a next state
in which every TAP of the chain is known to be in Test-Logic-Reset with its reset instruction, its constants
unchanged. (A TAP known to be in Capture-DR or Shift-DR under a reserved instruction is excepted: R172.) (The
known mark is log entry 4.) (R168, R342, R132, R41.) -/
def Obligations.ResetWalkFromAnyTarget : Prop :=
  ∀ (s : State) (ts : List Tap), s.shiftReady → s.env.isValid s.shiftPoint = true → s.target = .chain ts →
    (∀ t ∈ ts, t.navigable) →
    ∃ u ts', exec (.tShift 5 [0x1F, 0x00]) s = .next u ∧ u.target = .chain ts'
      ∧ ts'.map Tap.par = ts.map Tap.par
      ∧ ∀ t ∈ ts', t.known = true ∧ t.state = .testLogicReset ∧ t.instr = t.par.resetCode

/-- With the sequencer idle and one TAP whose state is unspecified, every J.TCK operation answers a next state with
TDO undefined; after a TMS 1 that follows four others the TAP is known, in Test-Logic-Reset with its reset
instruction; otherwise it stays unspecified, the count of ones going up with TMS 1 and back to 0 with TMS 0. Nothing
but the TAP, the result and the free-value index changes. (How the model counts towards five ones is its choice, log
entry 4, and that a J.TCK call clocks the target of an idle instance, between the engine's runs and at every operating
point, is its choice, log entry 41.) (R151, R168.) -/
def Obligations.UnspecifiedTapCycle : Prop :=
  ∀ (s : State) (t : Tap) (i : Instr) (x : TapState) (tms tdi : Bool), s.handle.isSome = true →
    s.mmio.busy = false →
    s.target = .chain [t] → t.known = false → i.tck? = some (x, tms, tdi) →
    ∃ t', exec i s = .next (s.cycled t' none) ∧ t'.par = t.par
      ∧ (tms = true → 4 ≤ t.ones → t'.known = true ∧ t'.state = .testLogicReset ∧ t'.instr = t.par.resetCode)
      ∧ (tms = true → t.ones < 4 → t'.known = false ∧ t'.ones = t.ones + 1)
      ∧ (tms = false → t'.known = false ∧ t'.ones = 0)

/-- When every TAP of a non-empty chain is known to be in Shift-DR under IDCODE or BYPASS (or in Shift-IR) with a
non-empty register, one cycle shifts the concatenation of the registers, from the last TAP back to the first, by
one place: its first bit is what the host captures, the host's TDI enters at its far end, and every TAP takes
the same transition. (R173, R41.) -/
def Obligations.ChainIsOneShiftRegister : Prop :=
  ∀ (draw : Nat) (tms tdi : Bool) (ts : List Tap), ts ≠ [] →
    ((∀ t ∈ ts, t.known = true ∧ t.state = .shiftDr ∧ t.selected ≠ .undescribed ∧ t.drSr ≠ []) →
      ∃ ts', chainCycle draw tms 0 tdi ts = some (ts', (ts.reverse.flatMap Tap.drSr).head?)
        ∧ ts'.reverse.flatMap Tap.drSr = (ts.reverse.flatMap Tap.drSr).tail ++ [tdi]
        ∧ ts'.map Tap.par = ts.map Tap.par
        ∧ ∀ t ∈ ts', t.state = if tms then .exit1Dr else .shiftDr)
    ∧ ((∀ t ∈ ts, t.known = true ∧ t.state = .shiftIr ∧ t.irSr ≠ []) →
      ∃ ts', chainCycle draw tms 0 tdi ts = some (ts', (ts.reverse.flatMap Tap.irSr).head?)
        ∧ ts'.reverse.flatMap Tap.irSr = (ts.reverse.flatMap Tap.irSr).tail ++ [tdi]
        ∧ ts'.map Tap.par = ts.map Tap.par
        ∧ ∀ t ∈ ts', t.state = if tms then .exit1Ir else .shiftIr)

/-- On an idle MMIO instance M.WR_LENGTH, M.WR_TMS, M.WR_TDI, M.WR_CLKDIV and M.WR_DELAY answer the state with that
one register at the value written, nothing returned and nothing else changed; for CLKDIV and DELAY when the
value is at most DIV_MAX or DELAY_MAX. A value above it is not written: the same state with one
OutOfRangeParameter diagnostic more (that a raw write answers so is the model's choice, log entry 24). (R69,
R198, R199, R200, R201, R202, R26, R27.) -/
def Obligations.RegisterWritesStoreOnly : Prop :=
  ∀ (s : State) (u : Nat) (v : Word), s.handle = some (.mmio u) → s.mmio.busy = false →
    exec (.mWrLength v) s = .next ((s.setMmio { s.mmio with length := v }).setRet .none)
    ∧ exec (.mWrTms v) s = .next ((s.setMmio { s.mmio with tms := v }).setRet .none)
    ∧ exec (.mWrTdi v) s = .next ((s.setMmio { s.mmio with tdi := v }).setRet .none)
    ∧ exec (.mWrClkdiv v) s = .next ((if v.toNat ≤ s.cfg.divMax then s.setMmio { s.mmio with clkdiv := v }
        else s.setDiags (s.diags ++ [.outOfRangeParameter])).setRet .none)
    ∧ exec (.mWrDelay v) s = .next ((if v.toNat ≤ s.cfg.delayMax then s.setMmio { s.mmio with delay := v }
        else s.setDiags (s.diags ++ [.outOfRangeParameter])).setRet .none)

/-- On an MMIO instance whose busy flag is set, the five register writes and the start strobe are refused as
accesses while busy, and a read of TDO is refused; J.TCK in every state, J.IDCODE and J.BYPASS are refused, so
that nothing cuts into the chunk's cycles. (That the J operations are refused then, and the name of that stop,
are the model's choice, log entry 13, from R68 and R191. Other operations are not in this statement: a read of
another register, log entry 17, a T.SHIFT of 0 bits and a setter's range check answer while busy too.) (R75,
R353, R195, R197, R68, R191.) -/
def Obligations.WritesStrobeTdoReadAndTapRefusedWhileBusy : Prop :=
  ∀ (s : State) (u : Nat) (v : Word), s.handle = some (.mmio u) → s.mmio.busy = true →
    (∀ i ∈ [Instr.mWrLength v, .mWrTms v, .mWrTdi v, .mWrClkdiv v, .mWrDelay v, .mWrStart],
      exec i s = .refused .accessWhileBusy)
    ∧ exec .mRdTdo s = .refused .tdoReadWhileBusy
    ∧ ∀ i : Instr, i.tck?.isSome = true ∨ i = .jIdcode ∨ i = .jBypass → exec i s = .refused .targetInUse

/-- On an idle MMIO instance M.WR_START answers the state with the busy flag set, the counter 0 and CTRL at
CTRL_START, nothing else changed, when LENGTH is 1 to 32; with LENGTH 0 or above 32 it is refused. (That CTRL
holds the value strobed is log entry 17.) (R195, R21, R191.) -/
def Obligations.StartStrobeSetsBusy : Prop :=
  ∀ (s : State) (u : Nat), s.handle = some (.mmio u) → s.mmio.busy = false →
    (1 ≤ s.mmio.length.toNat → s.mmio.length.toNat ≤ 32 → exec .mWrStart s =
      .next ((s.setMmio { s.mmio with ctrl := s.cfg.ctrlStart, busy := true, count := 0 }).setRet .none))
    ∧ (s.mmio.length.toNat = 0 ∨ 32 < s.mmio.length.toNat → exec .mWrStart s = .refused .lengthOutOfRange)

/-- On an MMIO instance whose busy mask is not 0, M.RD_STATUS returns some word that is non-zero under the mask
exactly when the sequencer is busy, changing only the result and the index of the free STATUS bits; on an idle
one M.RD_TDO returns the register and changes only the result. A call that reads another register of the table,
LENGTH, TMS, TDI, CTRL, CLKDIV or DELAY, is issued by step and returns some word, busy or not, changing only the
caller's bytes, the result and the index of the free values (U37 gives the value; that such a read is issued
busy or not and has no side effect is the model's choice, log entry 17; the call's bytes are log entry 1).
(R196, R197, R25, R24, R69, R96, R13.) -/
def Obligations.RegisterReadsHaveNoSideEffect : Prop :=
  ∀ (s : State) (u : Nat), s.handle = some (.mmio u) →
    (s.cfg.statusBusy ≠ 0 → ∃ w : Word,
      exec .mRdStatus s = .next ((s.setStatusReads (s.statusReads + 1)).setRet (.word w))
        ∧ (w &&& s.cfg.statusBusy ≠ 0 ↔ s.mmio.busy = true))
    ∧ (s.mmio.busy = false → exec .mRdTdo s = .next (s.setRet (.word s.mmio.tdo)))
    ∧ (∀ (s1 : State) (off : Nat) (tail : List Byte), s.cfg.wellFormed = true → off ∈ s.cfg.offsets →
        off ≠ s.cfg.regStatus → off ≠ s.cfg.regTdo → s.host.phase = .ready → deviceTurn s = .ok () s1 →
        s.calls = tagMmio :: accessBytes off 1 [] ++ tail →
        ∃ w : Word, step s = .next (((s1.setCalls tail).setDraws (s1.draws + 1)).setRet (.word w)))

/-- From a just started sequencer with LENGTH L in 1..32, if the L cycles with the low L bits of TMS and TDI can be
clocked, the run ends with busy clear, the counter at L, sample k of the cycles at TDO bit 32-L+k, the old TDO
moved down below it, LENGTH, TMS and TDI unchanged, and the target as the cycles left it. (What stands in the
bits below the samples is log entry 15.) (R191, R24, R22, R23.) -/
def Obligations.EngineRunLeavesCaptureAtTheTop : Prop :=
  ∀ (s u : State) (bits : Bits), s.mmio.busy = true → s.mmio.count = 0 → 1 ≤ s.mmio.length.toNat →
    s.mmio.length.toNat ≤ 32 →
    clockAll s.mmioPoint ((List.range s.mmio.length.toNat).map fun k => (s.mmio.tms.getLsbD k, s.mmio.tdi.getLsbD k)) s
      = .ok bits u →
    ∃ tdo : Word, engineFinish s =
        .ok () (u.setMmio { s.mmio with tdo := tdo, busy := false, count := s.mmio.length.toNat })
      ∧ (∀ k < s.mmio.length.toNat, tdo.getLsbD (32 - s.mmio.length.toNat + k) = bits.getD k false)
      ∧ (∀ k < 32 - s.mmio.length.toNat, tdo.getLsbD k = s.mmio.tdo.getLsbD (k + s.mmio.length.toNat))

/-- On a USB instance, if the cycles of the data bytes (TMS at the held level, TDI bit 0 of each byte first) can be
clocked, U.BYTE_SHIFT answers the state those cycles leave with one response byte for each data byte, bit b the
sample of its cycle b; the TMS level, the divisor and everything else of the adapter and the host are unchanged.
(The receive register rb is log entry 15.) (R222, R226, R49.) -/
def Obligations.ByteShiftCommand : Prop :=
  ∀ (s u : State) (a : UsbAddress) (e : Bool) (d : List Byte) (bits : Bits), s.handle = some (.usb a) →
    clockAll (s.usbPoint e) (d.flatMap fun x => (List.range 8).map fun b => (s.usb.tms, x.getLsbD b)) s = .ok bits u →
    exec (.uByteShift e d) s = .next ((u.setUsb { s.usb with
      rb := (packBits bits).getLastD s.usb.rb, rspq := s.usb.rspq ++ packBits bits }).setRet .none)

/-- On a USB instance, for r in 1..8, if the r cycles can be clocked, U.BIT_SHIFT answers the state they leave with
one response byte: the sample of cycle b at bit 8-r+b, older content of the receive register below; TMS level,
divisor and everything else are unchanged. (What stands in the bits below the samples is log entry 15.) (R223,
R226, R103.) -/
def Obligations.BitShiftCommand : Prop :=
  ∀ (s u : State) (a : UsbAddress) (e : Bool) (r : Nat) (d : Byte) (bits : Bits), s.handle = some (.usb a) →
    1 ≤ r → r ≤ 8 →
    clockAll (s.usbPoint e) ((List.range r).map fun b => (s.usb.tms, d.getLsbD b)) s = .ok bits u →
    ∃ x : Byte, exec (.uBitShift e r d) s =
        .next ((u.setUsb { s.usb with rb := x, rspq := s.usb.rspq ++ [x] }).setRet .none)
      ∧ (∀ b < r, x.getLsbD (8 - r + b) = bits.getD b false)
      ∧ (∀ b < 8 - r, x.getLsbD b = s.usb.rb.getLsbD (b + r))

/-- On a USB instance, for r in 1..7, if the r cycles with TMS bits b[0..r-1] and TDI b[7] can be clocked,
U.TMS_SHIFT answers the state they leave with the adapter's TMS level and the host's copy of it at b[r-1] and
one response byte with the sample of cycle j at bit 8-r+j; everything else is unchanged. For r = 1, the only
form the driver emits, the sample is at bit 7. (What stands in the bits below the samples is log entry 15; the
forms r = 2 to 7, and that a direct command sets the host's copy, are log entry 25.) (R224, R226, R100, R50.) -/
def Obligations.TmsShiftCommand : Prop :=
  ∀ (s u : State) (a : UsbAddress) (e : Bool) (r : Nat) (b : Byte) (bits : Bits), s.handle = some (.usb a) →
    1 ≤ r → r ≤ 7 →
    clockAll (s.usbPoint e) ((List.range r).map fun j => (b.getLsbD j, b.getLsbD 7)) s = .ok bits u →
    ∃ x : Byte, exec (.uTmsShift e r b) s =
        .next (((u.setUsb { s.usb with tms := b.getLsbD (r - 1), rb := x, rspq := s.usb.rspq ++ [x] }).setUsbHost
          { s.usbHost with tmsLevel := some (b.getLsbD (r - 1)) }).setRet .none)
      ∧ (∀ j < r, x.getLsbD (8 - r + j) = bits.getD j false)
      ∧ (∀ j < 8 - r, x.getLsbD j = s.usb.rb.getLsbD (j + r))

/-- On a USB instance U.SET_DIVISOR answers the state with the adapter's divisor at the value sent and nothing else
changed. (R225.) -/
def Obligations.SetDivisorCommandClocksNothing : Prop :=
  ∀ (s : State) (a : UsbAddress) (div : Half), s.handle = some (.usb a) →
    exec (.uSetDivisor div) s = .next ((s.setUsb { s.usb with div := div }).setRet .none)

/-- On a USB instance U.FLUSH of an empty descriptor list only ends the open run. Otherwise, where the adapter takes
the batch and has at least one response byte per descriptor, whatever the deliveries of its transfers, short
reads among them, as long as none fails and the rest arrives in the end, it answers a state with an empty batch,
exactly that many bytes consumed, the capture buffer updated by descriptor j from response byte j in order, and
the target as the adapter left it. (The deliveries are log entry 9.) (R240, R241, R242, R244.) -/
def Obligations.FlushReplaysDescriptors : Prop :=
  ∀ (s : State) (a : UsbAddress), s.handle = some (.usb a) →
    (s.usbHost.desc = [] → exec .uFlush s = .next ((s.setUsbHost { s.usbHost with run := none }).setRet .none))
    ∧ (∀ s1 : State, s.usbHost.desc ≠ [] → s.transfersOk → s.env.usbAlive = true →
        usbWrite s.usbHost.out (s.setUsbHost { s.usbHost with run := none }) = .ok () s1 →
        s.usbHost.desc.length ≤ s1.usb.rspq.length →
        ∃ t, exec .uFlush s = .next t ∧ t.usbHost = { s.usbHost with out := [], desc := [], run := none }
          ∧ t.usb = { s1.usb with rspq := s1.usb.rspq.drop s.usbHost.desc.length }
          ∧ t.host.tdoBuf = (s.usbHost.desc.zip s1.usb.rspq).foldl (fun buf p => unpack p.1 p.2 buf) s.host.tdoBuf
          ∧ t.target = s1.target ∧ t.draws = s1.draws
          ∧ t.env = { s.env with delivery := t.env.delivery, writes := s.env.writes.tail } ∧ t.mmio = s.mmio ∧ t.identity = s.identity ∧ t.diags = s.diags ∧ t.rest = s.rest)

/-- On a working idle MMIO instance, for n > 0 and a buffer of the right length, whenever the n cycles of ShiftSpec
can be clocked, T.SHIFT answers a next state with exactly their capture (pad bits 0: log entry 31) and exactly
the target they leave, for every pace at which the sequencer moves between the host's looks; busy is clear, the
shadows equal the registers, LENGTH is the last chunk's, CLKDIV, DELAY, the USB side, identity, diagnostics,
handle, table, parameters and callers' operations are unchanged. (The pace is log entry 8; that CTRL holds the
value strobed is log entry 17. The busy-poll has no bound, or one above the number of busy reads that can come.)
(R203, R132, R193, R133, R191, R352.) -/
def Obligations.MmioShiftIsTheSpecifiedShift : Prop :=
  ∀ (s u : State) (n : Nat) (buf : List Byte) (bits : Bits), s.cfg.wellFormed = true → s.mmioReady → 0 < n → buf.length = 2 * bytesFor n →
    clockAll s.mmioPoint (vectorOf n (buf.take (bytesFor n)) (buf.drop (bytesFor n))) s = .ok bits u →
    ∃ t, exec (.tShift n buf) s = .next t ∧ t.ret = .bytes (packBits bits) ∧ t.target = u.target ∧ t.draws = u.draws
      ∧ t.mmio.busy = false ∧ t.mmio.clkdiv = s.mmio.clkdiv ∧ t.mmio.delay = s.mmio.delay
      ∧ t.mmio.ctrl = s.cfg.ctrlStart ∧ t.mmio.length.toNat = n - 32 * ((n - 1) / 32)
      ∧ t.shadow = { len := t.mmio.length, tms := t.mmio.tms, tdi := t.mmio.tdi }
      ∧ t.host = HostSeq.idle ∧ t.usb = s.usb ∧ t.usbHost = s.usbHost
      ∧ t.identity = s.identity ∧ t.diags = s.diags ∧ t.rest = s.rest
      ∧ t.env = { s.env with pace := t.env.pace }

/-- On a working USB instance, for n > 0 and a buffer of the right length, whenever the n cycles of ShiftSpec can be
clocked, T.SHIFT answers a next state with exactly their capture (pad bits 0: log entry 31) and exactly the
target they leave, for all budgets and all deliveries without a transfer error; batch and queues are empty
again, the levels agree, the divisor, the edge, the MMIO side, identity, diagnostics, handle, table, parameters
and callers' operations are unchanged. (The deliveries are log entry 9.) (R245, R132, R230, R133, R35, R50.) -/
def Obligations.UsbShiftIsTheSpecifiedShift : Prop :=
  ∀ (s u : State) (n : Nat) (buf : List Byte) (bits : Bits), s.cfg.wellFormed = true → s.usbReady → 0 < n → buf.length = 2 * bytesFor n →
    clockAll (s.usbPoint s.usbHost.edge) (vectorOf n (buf.take (bytesFor n)) (buf.drop (bytesFor n))) s = .ok bits u →
    ∃ t, exec (.tShift n buf) s = .next t ∧ t.ret = .bytes (packBits bits) ∧ t.target = u.target ∧ t.draws = u.draws
      ∧ t.usb.cmdq = [] ∧ t.usb.rspq = [] ∧ t.usb.div = s.usb.div ∧ t.levelsAgree = true
      ∧ t.usbHost.out = [] ∧ t.usbHost.desc = [] ∧ t.usbHost.edge = s.usbHost.edge
      ∧ t.host = HostSeq.idle ∧ t.mmio = s.mmio ∧ t.shadow = s.shadow
      ∧ t.identity = s.identity ∧ t.diags = s.diags ∧ t.rest = s.rest
      ∧ t.env = { s.env with delivery := t.env.delivery, writes := t.env.writes }

/-- Take a working MMIO instance and a working USB instance with the same target, each at a valid operating point,
and the same next free values. For every n > 0 and request whose cycles can be clocked, both T.SHIFT calls
answer a next state, with the same capture, that of the n cycles of ShiftSpec (the pad bits of the last byte
aside), and the same target. (That equal counters give equal draws is log entry 5.) (R138, R133.) -/
def Obligations.BackendsAgree : Prop :=
  ∀ (s w u : State) (n : Nat) (buf : List Byte) (bits : Bits), s.cfg.wellFormed = true → w.cfg.wellFormed = true →
    s.mmioReady → w.usbReady → s.env.isValid s.shiftPoint = true → w.env.isValid w.shiftPoint = true →
    s.target = w.target → s.draws = w.draws → 0 < n → buf.length = 2 * bytesFor n →
    clockAll s.shiftPoint (vectorOf n (buf.take (bytesFor n)) (buf.drop (bytesFor n))) s = .ok bits u →
    ∃ t1 t2, exec (.tShift n buf) s = .next t1 ∧ exec (.tShift n buf) w = .next t2
      ∧ (∃ c1 c2, t1.ret = .bytes c1 ∧ t2.ret = .bytes c2 ∧ c1.length = bytesFor n ∧ c2.length = bytesFor n
          ∧ bufBits c1 n = bits ∧ bufBits c2 n = bits)
      ∧ t1.target = u.target ∧ t2.target = u.target

/-- On a working instance of either backend at an invalid operating point, T.SHIFT of any n > 0 bits answers a next
state, with no error, whose capture has at bit i the free bit of cycle i whatever the target is; every TAP of
the target is unspecified, its registers the free values of the last cycle, its constants unchanged; a loopback
double stays. Identity, diagnostics, handle, table and parameters are unchanged. (That the draws are taken cycle
by cycle is log entry 7.) (R48, R358, R132.) -/
def Obligations.InvalidPointLosesCaptureAndTarget : Prop :=
  ∀ (s : State) (n : Nat) (buf : List Byte), s.shiftReady → s.env.isValid s.shiftPoint = false → 0 < n →
    buf.length = 2 * bytesFor n →
    ∃ t cap, exec (.tShift n buf) s = .next t ∧ t.ret = .bytes cap ∧ cap.length = bytesFor n
      ∧ (∀ i < n, bitAt cap i = Config.freeBit (s.draws + i) 0)
      ∧ t.target = s.target.lose (s.draws + (n - 1)) ∧ t.draws = s.draws + n
      ∧ (∀ ts, t.target = .chain ts → ∀ u ∈ ts, u.known = false) ∧ t.target.constants = s.target.constants
      ∧ t.identity = s.identity ∧ t.diags = s.diags ∧ t.rest = s.rest

/-- In an instance of either backend, T.SHIFT with n = 0 and the empty buffer answers the same state with an empty
result; a negative length, or a buffer that is not 2*ceil(n/8) bytes long, is refused. (R132, R92, R104, R319.) -/
def Obligations.ShiftRequestChecks : Prop :=
  ∀ (s : State), s.handle.isSome = true →
    exec (.tShift 0 []) s = .next (s.setRet (.bytes []))
    ∧ ∀ (n : Int) (buf : List Byte), n < 0 ∨ buf.length ≠ 2 * bytesFor n.toNat →
        exec (.tShift n buf) s = .refused .badShiftRequest

/-- On an idle MMIO instance whose sequencer never moves, with POLL_LIMIT 0, a well-formed T.SHIFT of n > 0 bits
leaves the host stuck in the busy-poll: busy is set, no diagnostic, the target saw no cycle, and every later
step changes nothing. (The unresponsive sequencer is log entry 8.) (R350, R196, R134.) -/
def Obligations.UnresponsiveSequencerHangsTheHost : Prop :=
  ∀ (s : State) (i n : Nat) (buf : List Byte), s.handle = some (.mmio i) → s.mmio.busy = false →
    s.env.engineAlive = false → s.env.pace = [] → s.cfg.pollLimit = 0 → 0 < n → buf.length = 2 * bytesFor n →
    ∃ t, exec (.tShift n buf) s = .next t ∧ t.host.phase = .stuckBusyPoll ∧ t.mmio.busy = true
      ∧ t.target = s.target ∧ t.diags = s.diags ∧ step t = .next t

/-- On a USB instance with an empty command stream whose response bytes are never delivered, a well-formed T.SHIFT
of n > 0 bits whose cycles can be clocked leaves the host stuck in the read of its first batch: no diagnostic,
no result, and every later step changes nothing. On a USB instance whose next write transfer fails, T.SHIFT and
T.SET_CLOCK_DIVISOR are refused, and so is T.SHIFT where the next read transfer fails. (The deliveries and
failures are log entry 9.) (R351, R244, R134, R317.) -/
def Obligations.UndeliveredBytesHangTheHost : Prop :=
  ∀ (s u : State) (a : UsbAddress) (n : Nat) (buf : List Byte) (bits : Bits), s.handle = some (.usb a) →
    s.cfg.wellFormed = true → s.usb.cmdq = [] → s.levelsAgree = true → 0 < n → buf.length = 2 * bytesFor n →
    clockAll (s.usbPoint s.usbHost.edge) (vectorOf n (buf.take (bytesFor n)) (buf.drop (bytesFor n))) s = .ok bits u →
    (s.env.usbAlive = false → s.env.delivery = [] → false ∉ s.env.writes →
      ∃ t, exec (.tShift n buf) s = .next t ∧ t.host.phase = .stuckRead ∧ t.diags = s.diags ∧ t.ret = s.ret
        ∧ step t = .next t)
    ∧ (s.env.writes.head? = some false → exec (.tShift n buf) s = .refused .usbTransferError
        ∧ ∀ v : Int, exec (.tSetClockDivisor v) s = .refused .usbTransferError)
    ∧ (s.env.delivery.head? = some .error → s.env.writes.head? ≠ some false →
        exec (.tShift n buf) s = .refused .usbTransferError)

/-- On an idle MMIO instance whose sequencer never moves, with POLL_LIMIT above 0, a well-formed T.SHIFT of n > 0
bits ends in TransportTimeout; so it does where it moves, but not to the end of the first chunk. On one that
finishes its chunk, for 1 to 32 bits, T.SHIFT ends in it where POLL_LIMIT or more reads of STATUS show busy
before the chunk's n + 1 moves are made, and completes with the bits of its cycles where fewer do, after one
read more than those. With POLL_LIMIT 0 no operation in any state ends in it. (The unresponsive sequencer is log
entry 8, the fault log entry 35.) (R316, R204, R196.) -/
def Obligations.PollLimitRaisesTimeout : Prop :=
  (∀ (s : State) (i n : Nat) (buf : List Byte), s.handle = some (.mmio i) → s.mmio.busy = false →
    s.env.engineAlive = false → s.env.pace = [] → 0 < s.cfg.pollLimit → 0 < n → buf.length = 2 * bytesFor n →
    exec (.tShift n buf) s = .fault .transportTimeout)
  ∧ (∀ (s u : State) (i n : Nat) (buf : List Byte) (bits : Bits), s.handle = some (.mmio i) → s.mmio.busy = false →
    s.cfg.statusBusy ≠ 0 → 0 < s.cfg.pollLimit → 0 < n → buf.length = 2 * bytesFor n →
    clockAll s.mmioPoint (vectorOf n (buf.take (bytesFor n)) (buf.drop (bytesFor n))) s = .ok bits u →
    (s.env.engineAlive = false → s.env.pace.sum ≤ min 32 n → exec (.tShift n buf) s = .fault .transportTimeout)
    ∧ (s.env.engineAlive = true → n ≤ 32 → s.cfg.pollLimit ≤ busyReads s.env.pace (n + 1) →
        exec (.tShift n buf) s = .fault .transportTimeout)
    ∧ (s.env.engineAlive = true → n ≤ 32 → busyReads s.env.pace (n + 1) < s.cfg.pollLimit →
        ∃ t, exec (.tShift n buf) s = .next t ∧ t.ret = .bytes (packBits bits) ∧ t.target = u.target
          ∧ t.statusReads = s.statusReads + busyReads s.env.pace (n + 1) + 1))
  ∧ (∀ (i : Instr) (s : State), s.cfg.pollLimit = 0 → exec i s ≠ .fault .transportTimeout)

/-- On a working instance of either backend at a valid operating point, with the loopback double f in place of the
target, T.SHIFT of any n > 0 bits with any TMS and TDI content answers a next state whose capture has, at bit i,
f of TMS bit i and TDI bit i; the double stays in place. (R140.) -/
def Obligations.LoopbackReturnsItsFunction : Prop :=
  ∀ (s : State) (f : LoopFn) (n : Nat) (buf : List Byte), s.shiftReady → s.env.isValid s.shiftPoint = true →
    s.target = .loopback f → 0 < n → buf.length = 2 * bytesFor n →
    ∃ t, exec (.tShift n buf) s = .next t ∧ t.target = .loopback f
      ∧ ∃ cap, t.ret = .bytes cap ∧ cap.length = bytesFor n
        ∧ ∀ i < n, bitAt cap i = f.eval (bitAt (buf.take (bytesFor n)) i) (bitAt (buf.drop (bytesFor n)) i)

/-- On a working instance of either backend at a valid operating point, with one TAP in any state, known or not (but
not in a data state under a reserved instruction), P.SCAN_CHAIN returns the identifier when the device has one
and 0 when it has none; the TAP ends known, in Exit1-DR with its reset instruction; identity, diagnostics,
handle, table and parameters are unchanged. (R264, R265, R176.) -/
def Obligations.ScanChainReadsTheIdentifier : Prop :=
  ∀ (s : State) (t : Tap), s.shiftReady → s.env.isValid s.shiftPoint = true →
    s.target = .chain [t] → t.navigable →
    ∃ u t', exec .pScanChain s = .next u ∧ u.ret = .word (if t.par.hasIdcode then t.par.idcodeValue else 0)
      ∧ u.target = .chain [t'] ∧ t'.known = true ∧ t'.state = .exit1Dr ∧ t'.instr = t.par.resetCode ∧ t'.par = t.par
      ∧ u.identity = s.identity ∧ u.diags = s.diags ∧ u.rest = s.rest

/-- On a working instance of either backend at a valid operating point, with one TAP that has an identification
register and a DeviceIdentity whose irLength (at least 1) and idCommand are the device's, P.PROBE_IDCODE returns
IDCODE_VALUE; the TAP ends in Exit1-DR with idCommand as its instruction; identity, diagnostics, handle, table
and parameters are unchanged. (R262, R263, R170.) -/
def Obligations.ProbeIdcodeReadsTheIdentifier : Prop :=
  ∀ (s : State) (t : Tap) (d : DeviceIdentity), s.shiftReady → s.env.isValid s.shiftPoint = true →
    s.target = .chain [t] → t.navigable →
    s.identity = some d → d.irLength = t.par.irLength → d.idCommand = t.par.idCommand → 1 ≤ t.par.irLength →
    t.par.hasIdcode = true →
    ∃ u t', exec .pProbeIdcode s = .next u ∧ u.ret = .word t.par.idcodeValue
      ∧ u.target = .chain [t'] ∧ t'.known = true ∧ t'.state = .exit1Dr ∧ t'.instr = t.par.idcodeCode ∧ t'.par = t.par
      ∧ u.identity = s.identity ∧ u.diags = s.diags ∧ u.rest = s.rest

/-- On a working instance of either backend at a valid operating point, with one TAP whose all-ones code is BYPASS
and a DeviceIdentity whose irLength (at least 1) is the device's, P.PROBE_BYPASS_VEC of any non-empty list
returns the list and P.PROBE_BYPASS of any word the word; the TAP ends in Exit1-DR with the all-ones
instruction; identity, diagnostics, handle, table and parameters are unchanged. (R267, R268, R269, R171.) -/
def Obligations.ProbeBypassReturnsItsPayload : Prop :=
  ∀ (s : State) (t : Tap) (d : DeviceIdentity) (values : List Word) (value : Word), s.shiftReady → s.env.isValid s.shiftPoint = true →
    s.target = .chain [t] → t.navigable →
    s.identity = some d → d.irLength = t.par.irLength → 1 ≤ t.par.irLength →
    (t.par.hasIdcode = true → t.par.idcodeCode ≠ t.par.bypassCode) → values ≠ [] →
    (∃ u t', exec (.pProbeBypassVec values) s = .next u ∧ u.ret = .words values
      ∧ u.target = .chain [t'] ∧ t'.known = true ∧ t'.state = .exit1Dr ∧ t'.instr = t.par.bypassCode ∧ t'.par = t.par
      ∧ u.identity = s.identity ∧ u.diags = s.diags ∧ u.rest = s.rest)
    ∧ (∃ u t', exec (.pProbeBypass value) s = .next u ∧ u.ret = .word value
      ∧ u.target = .chain [t'] ∧ t'.known = true ∧ t'.state = .exit1Dr ∧ t'.instr = t.par.bypassCode ∧ t'.par = t.par
      ∧ u.identity = s.identity ∧ u.diags = s.diags ∧ u.rest = s.rest)

/-- On a working instance without an identity, with one TAP that has an identification register whose value the
catalog holds, and the slowest divisor with timing value 0 valid, P.DETECT answers a next state with the
catalog's record as DeviceIdentity, isDetected true, the divisor at its slowest value, the timing value 0 and no
diagnostic. (R266, R42, R261.) -/
def Obligations.DetectFixesTheFirstIdentity : Prop :=
  ∀ (s : State) (h : Handle) (t : Tap) (d : DeviceIdentity), s.shiftReady → s.handle = some h → s.identity = none →
    s.env.isValid (slowestDivisor s.cfg h, 0) = true → s.target = .chain [t] → t.navigable →
    t.par.hasIdcode = true → s.cfg.catalog.find? (fun r => decide (r.idcode = t.par.idcodeValue)) = some d →
    ∃ u, exec .pDetect s = .next u ∧ u.identity = some d ∧ u.isDetected = true ∧ u.diags = s.diags ∧ u.ret = .none
      ∧ u.rest = s.rest
      ∧ (∀ i, h = .mmio i → u.mmio.clkdiv.toNat = s.cfg.divMax ∧ u.mmio.delay = 0)
      ∧ (∀ a, h = .usb a → u.usb.div.toNat = s.cfg.usbDivMax ∧ u.usbHost.edge = false)

/-- On a working instance without an identity, with one TAP, every timing value valid at the slowest divisor, and a
catalog that does not hold what the scan reads, P.DETECT answers a next state with DeviceIdentity absent,
isDetected false, one DetectionFailure diagnostic more, the divisor at its slowest value and the timing
parameter at the last value of the sweep. (R266, R312.) -/
def Obligations.DetectFailsSoftly : Prop :=
  ∀ (s : State) (h : Handle) (t : Tap), s.shiftReady → s.handle = some h → s.identity = none →
    (∀ tp ≤ tpMax s.cfg h, s.env.isValid (slowestDivisor s.cfg h, tp) = true) → s.target = .chain [t] → t.navigable →
    (∀ r ∈ s.cfg.catalog, r.idcode ≠ if t.par.hasIdcode then t.par.idcodeValue else 0) →
    ∃ u, exec .pDetect s = .next u ∧ u.identity = none ∧ u.isDetected = false
      ∧ u.diags = s.diags ++ [.detectionFailure] ∧ u.ret = .none ∧ u.rest = s.rest
      ∧ (∀ i, h = .mmio i → u.mmio.clkdiv.toNat = s.cfg.divMax ∧ u.mmio.delay.toNat = s.cfg.delayMax)
      ∧ (∀ a, h = .usb a → u.usb.div.toNat = s.cfg.usbDivMax ∧ u.usbHost.edge = true)

/-- In an instance with a DeviceIdentity, P.DETECT answers the same state, with nothing returned (that the setters
are not issued either is the model's reading, log entry 21). (R266, R42.) -/
def Obligations.DetectAgainChangesNothing : Prop :=
  ∀ (s : State), s.handle.isSome = true → s.identity.isSome = true → exec .pDetect s = .next (s.setRet .none)

/-- In an instance without a DeviceIdentity, P.PROBE_IDCODE, P.PROBE_BYPASS and P.PROBE_BYPASS_VEC are refused; in
one with it, P.PROBE_BYPASS_VEC of no words is refused. (R270, R268.) -/
def Obligations.ProbesNeedAnIdentity : Prop :=
  ∀ (s : State) (value : Word) (values : List Word), s.handle.isSome = true →
    (s.isDetected = false → exec .pProbeIdcode s = .refused .noIdentity
      ∧ exec (.pProbeBypass value) s = .refused .noIdentity
      ∧ exec (.pProbeBypassVec values) s = .refused .noIdentity)
    ∧ (s.isDetected = true → exec (.pProbeBypassVec []) s = .refused .emptyPayload)

/-- For every parameter set that makes sense, every well-formed operation with every operand value, and any bytes
after it, decoding its encoding answers the operation and those bytes. (The call encoding around the spec's
formats is the model's own, log entry 1.) (R91, R92, R93, R94, R96, R98, R99, R100, R101.) -/
def Obligations.CallDecodesToItsOperation : Prop :=
  ∀ (c : Config) (i : Instr) (tail : List Byte), c.wellFormed = true → i.wellFormed = true →
    decode c (encode c i ++ tail) = .ok i tail

/-- For every parameter set that makes sense and every well-formed U.BYTE_SHIFT, U.BIT_SHIFT, U.TMS_SHIFT or
U.SET_DIVISOR, decoding its command bytes followed by any others answers the command and leaves the others.
(R97, R98, R99, R100, R101, R102.) -/
def Obligations.CommandStreamDecodesToItsCommand : Prop :=
  ∀ (c : Config) (i : Instr) (tail : List Byte), c.wellFormed = true → i.wellFormed = true → encodeCommand c i ≠ [] →
    decodeCommand c (encodeCommand c i ++ tail) = .ok i tail

/-- Whatever the parameters and the bytes, an operation the decoder answers is well formed, and the bytes it leaves
are the input without a non-empty front part. (The byte form of a call is the model's own, log entries 1 and
28.) (R90, R92, R268.) -/
def Obligations.DecodeAnswersOnlyWellFormed : Prop :=
  ∀ (c : Config) (bs tail : List Byte) (i : Instr), decode c bs = .ok i tail →
    i.wellFormed = true ∧ ∃ front, front ≠ [] ∧ bs = front ++ tail

/-- With the host able to go on: where the devices' turn answers a state whose caller's bytes decode to an
operation, the step is that operation run at that state with those bytes taken away, but for a shift longer than
the caller's own limit, whose bytes are taken away and nothing else happens (R139, log entry 39); and where the
sequencer is idle and the command stream empty, the devices' turn changes nothing. (That a step first moves the
devices and then runs one whole operation is the model's choice, log entries 8 and 33; the byte stream of calls
is the model's own, log entry 1.) (R30, R72, R139.) -/
def Obligations.StepRunsTheDecodedOperation : Prop :=
  (∀ (s s1 : State) (i : Instr) (tail : List Byte), s.host.phase = .ready → deviceTurn s = .ok () s1 →
    decode s1.cfg s1.calls = .ok i tail →
    step s = if Config.accepts s1.cfg i then exec i (s1.setCalls tail) else .next (s1.setCalls tail))
  ∧ (∀ s : State, s.mmio.busy = false → s.usb.cmdq = [] → deviceTurn s = .ok () s)

/-- A step of a host stuck in one of the two waits changes nothing; so does a step with no caller's operation, or
with one whose bytes are not all there, an idle sequencer and an empty command stream. (The stuck phases and the
idle step are log entries 1 and 8.) (R350, R351, R30.) -/
def Obligations.StepWaitsWhenStuckOrIdle : Prop :=
  (∀ s : State, s.host.phase = .stuckBusyPoll ∨ s.host.phase = .stuckRead → step s = .next s)
  ∧ (∀ s : State, s.host.phase = .ready → s.mmio.busy = false → s.usb.cmdq = [] →
      s.calls = [] ∨ decode s.cfg s.calls = .incomplete → step s = .next s)

/-- At the default parameters (the family's, log entry 10, which bind nothing): 39 01 00 A5 3C is a byte-shift of A5
3C on the rising edge; 3B 03 0A a bit-shift of 4 bits; 6B 00 81 a TMS-shift of TMS 1 and TDI 1; 86 05 00 sets
divisor 5; a write of 1F at offset 04 is M.WR_TMS; the table's pattern 0010 10, by the informative state codes
of R175 (log entry 27), is a Shift-DR cycle with TMS 1 and TDI 0. (R98, R99, R100, R101, R96, R94, R175.) -/
def Obligations.SampleWordsDecode : Prop :=
  decodeCommand Config.default [0x39, 0x01, 0x00, 0xA5, 0x3C] = .ok (.uByteShift false [0xA5, 0x3C]) []
  ∧ decodeCommand Config.default [0x3B, 0x03, 0x0A] = .ok (.uBitShift false 4 0x0A) []
  ∧ decodeCommand Config.default [0x6B, 0x00, 0x81] = .ok (.uTmsShift false 1 0x81) []
  ∧ decodeCommand Config.default [0x86, 0x05, 0x00] = .ok (.uSetDivisor 5) []
  ∧ decodeAccess Config.default 0x04 0 [0x1F, 0x00, 0x00, 0x00] = .ok (.mWrTms 0x1F) []
  ∧ decodeTck 0b001010 = some (.jTckShiftDr true false)

/-- If in a state every TAP has an instruction and an instruction shift stage of irLength bits and a data shift
stage of at most 32, then so it is in the next state. (R37, R38, R39.) -/
def Obligations.TapWidthsKept : Prop :=
  ∀ s t : State, s.tapsOk = true → step s = .next t → t.tapsOk = true

/-- If in a state every TAP known to be in Test-Logic-Reset has the reset instruction, then so it is in the next
state. (R152, R167.) -/
def Obligations.ResetInstructionKept : Prop :=
  ∀ s t : State, s.resetInstrOk = true → step s = .next t → t.resetInstrOk = true

/-- If in a state the counter is at most 32 and, while busy, LENGTH is 1 to 32 and the counter has not passed it,
then so it is in the next state. (R28, R21, R191.) -/
def Obligations.SequencerCounterKept : Prop :=
  ∀ s t : State, s.sequencerOk = true → step s = .next t → t.sequencerOk = true

/-- For parameters that make sense: if in a state the command stream is empty, the host's copy of the TMS level is
unknown or the adapter's, and no batch is pending (unless the host is stuck reading), then so it is in the next
state. (R50, R33, R34, R226.) -/
def Obligations.TmsLevelKept : Prop :=
  ∀ s t : State, s.cfg.wellFormed = true → s.levelOk = true → step s = .next t → t.levelOk = true

/-- If in a state a DeviceIdentity is present only together with a handle, then so it is in the next state; an
identity that is present is unchanged in it, a handle that exists is unchanged, and the parameters are
unchanged: the configuration and the catalog, the constants of every TAP or the double's function, the oracle of
valid points, the devices and engines of the environment. (R42, R43, R46, R10, R40.) -/
def Obligations.IdentityAndHandleKept : Prop :=
  ∀ s t : State, s.identityOk = true → step s = .next t →
    t.identityOk = true ∧ t.parameters = s.parameters ∧ (∀ d, s.identity = some d → t.identity = some d)
      ∧ (∀ h, s.handle = some h → t.handle = some h)

/-- If in a state CLKDIV is at most DIV_MAX and DELAY at most DELAY_MAX, then so it is in the next state, whatever
the operation: a value outside the range is never written. (That T.OPEN leaves them legal is log entry 3, that a
raw write out of range is ignored is log entry 24.) (R26, R27, R135, R137, R201, R202.) -/
def Obligations.LegalDivisorAndDelayKept : Prop :=
  ∀ s t : State, s.legalPoint = true → step s = .next t → t.legalPoint = true

/-- State.reset has TAP registers of their widths, the reset-instruction property, a sound sequencer, agreeing TMS
levels with nothing pending, no identity without a handle, a legal operating point, and parameters that make
sense. (The values of the target's registers at reset are the model's, log entries 2 and 36, and so are CLKDIV
and DELAY.) (R47, R20.) -/
def Obligations.InvariantsHoldAtReset : Prop :=
  State.reset.tapsOk = true ∧ State.reset.resetInstrOk = true ∧ State.reset.sequencerOk = true
    ∧ State.reset.levelOk = true ∧ State.reset.identityOk = true ∧ State.reset.legalPoint = true ∧ State.reset.cfg.wellFormed = true

/-- For every hysteresis h and delays 0..m of which exactly a..b pass, with at least max(h, 1) of them, the window
recorded over the sweep starts at a (not a+h) and counts b-a+1. (The calibrator as a function is log entry 26.)
(R285, R288.) -/
def Obligations.WindowStartIsBackdated : Prop :=
  ∀ h a b m : Nat, a ≤ b → b ≤ m → max h 1 ≤ b - a + 1 →
    let w := (List.range (m + 1)).foldl (fun w d => w.push h d (decide (a ≤ d ∧ d ≤ b))) Window.empty
    w.recording = true ∧ w.start = a ∧ w.count = b - a + 1

/-- After finalize the ids of the table are 0 to N-1 in order, whatever they were; with the ids set aside, the
points are the same in the same order; and removing an entry before it leaves no gap. (R282, R281.) -/
def Obligations.FinalizeMakesIdsDense : Prop :=
  ∀ (s : State) (k : Nat),
    (tableFinalize s).table.map CalibrationPoint.id = List.range s.table.length
    ∧ (tableFinalize s).table.map (fun p => { p with id := 0 }) = s.table.map (fun p => { p with id := 0 })
    ∧ (tableFinalize (tableRemove k s)).table.map CalibrationPoint.id = List.range (s.table.eraseIdx k).length

/-- A point it answers stands in the table, every point before it is strictly slower and none after it is faster; it
answers nothing exactly on the empty table. (R282.) -/
def Obligations.MaxFrequencyKeepsTheFirst : Prop :=
  (∀ (items : List CalibrationPoint) (p : CalibrationPoint), getItemByMaxFrequency items = some p →
    ∃ before after, items = before ++ p :: after
      ∧ (∀ q ∈ before, q.clockFrequencyHz < p.clockFrequencyHz) ∧ (∀ q ∈ after, q.clockFrequencyHz ≤ p.clockFrequencyHz))
  ∧ (∀ items : List CalibrationPoint, getItemByMaxFrequency items = none ↔ items = [])

/-- Whatever the choices of the run and the state it starts in: if the calibrator answers a table on the MMIO
backend, every point has validPointCount at least clockDivisor/2 and the frequency of its divisor; on the USB
backend every point has a legal divisor whose exact frequency lies within the bounds of the run, and that
frequency truncated; on both the ids are 0 to N-1 in order. (The calibrator as a function is log entry 26.)
(R286, R288, R291, R280, R295, R296.) -/
def Obligations.CalibratedPointsPassTheGate : Prop :=
  ∀ (m : MmioCalibration) (k : UsbCalibration) (s t : State) (items : List CalibrationPoint),
    calibrate m k s = .ok items t →
    items.map CalibrationPoint.id = List.range items.length
    ∧ (∀ i, s.handle = some (.mmio i) → ∀ p ∈ items, p.clockDivisor / 2 ≤ p.validPointCount
        ∧ p.clockFrequencyHz = s.cfg.baseClockHz / ((p.clockDivisor + 1) * 2))
    ∧ (∀ a, s.handle = some (.usb a) → ∀ p ∈ items, p.clockDivisor ≤ s.cfg.usbDivMax
        ∧ k.minFreq * ((p.clockDivisor + 1) * 2) ≤ s.cfg.usbBaseClockHz
        ∧ s.cfg.usbBaseClockHz ≤ k.maxFreq * ((p.clockDivisor + 1) * 2)
        ∧ p.clockFrequencyHz = s.cfg.usbBaseClockHz / ((p.clockDivisor + 1) * 2))
end

