-- ==== Sys2Proof/Laws/Decode.lean ====
section
/-! SUPPORT. The small lemmas of the byte formats: numbers in little-endian bytes, and taking bytes off a stream. -/

namespace Sys2Proof

@[simp] theorem leBytes_length (k x : Nat) : (leBytes k x).length = k := by
  induction k generalizing x with
  | zero => rfl
  | succ k ih => simp [leBytes, ih]

/-- A number that fits its bytes reads back. -/
theorem natOfBytes_leBytes (k x : Nat) : natOfBytes (leBytes k x) = x % 256 ^ k := by
  induction k generalizing x with
  | zero => simp [leBytes, natOfBytes, Nat.mod_one]
  | succ k ih =>
    rw [Nat.pow_succ', Nat.mod_mul (x := x) (a := 256) (b := 256 ^ k), ← ih]
    rfl

/-- Bytes put in front of a stream are the ones taken off it. -/
@[simp] theorem takeBytes_append (xs rest : List Byte) : takeBytes xs.length (xs ++ rest) = some (xs, rest) := by
  induction xs with
  | nil => cases rest <;> rfl
  | cons x xs ih => simp [takeBytes, ih]

/-- The same, for a count known to be the length. -/
theorem takeBytes_append_of_length {k : Nat} {xs : List Byte} (rest : List Byte) (h : xs.length = k) :
    takeBytes k (xs ++ rest) = some (xs, rest) := h ▸ takeBytes_append xs rest

/-- What is taken stood at the front. -/
theorem takeBytes_eq_some {k : Nat} {bs xs rest : List Byte} (h : takeBytes k bs = some (xs, rest)) :
    bs = xs ++ rest ∧ xs.length = k := by
  induction k generalizing bs xs with
  | zero => simp [takeBytes] at h; simp [h.1.symm, h.2]
  | succ k ih =>
    cases bs with
    | nil => cases h
    | cons b bs =>
      simp only [takeBytes] at h
      split at h
      · cases h
      · rename_i ys r hy
        cases h
        obtain ⟨e, l⟩ := ih hy
        exact ⟨by rw [e]; rfl, by simp [l]⟩

/-- Bytes that decode to an operation are no read of another register (U37). -/
theorem decodeReadBack_of_decode {c : Config} {bs rest : List Byte} {i : Instr} (h : decode c bs = .ok i rest) :
    decodeReadBack c bs = none := by
  cases bs with
  | nil => rfl
  | cons t bs =>
    simp only [decodeReadBack]
    split
    · rename_i ht
      subst ht
      split
      · rfl
      · split
        · rename_i hb
          have e : decodeTagged c tagMmio bs = decodeAccessCall c bs := by
            simp [decodeTagged, tagMmio, tagOpen, tagShift, tagSetDiv, tagSetTiming, tagTck, tagIdcode, tagBypass]
          rw [decode, e, hb] at h
          cases h
        · rfl
    · rfl

/-- Words put in front of a stream are the ones taken off it. -/
theorem takeWords_append (ws : List Word) (rest : List Byte) :
    takeWords ws.length (wordBytes ws ++ rest) = some (ws, rest) := by
  induction ws with
  | nil => cases rest <;> rfl
  | cons w ws ih =>
    have e : wordBytes (w :: ws) ++ rest = leBytes 4 w.toNat ++ (wordBytes ws ++ rest) := by simp [wordBytes]
    have n : natOfBytes (leBytes 4 w.toNat) = w.toNat := by
      rw [natOfBytes_leBytes]; exact Nat.mod_eq_of_lt (by have := w.isLt; omega)
    simp only [List.length_cons, takeWords, e, takeBytes_append_of_length _ (leBytes_length 4 _), ih, n,
      BitVec.ofNat_toNat, BitVec.setWidth_eq]

end Sys2Proof
end

