-- ==== Sys2Proof/Laws/State.lean ====
section
/-! SUPPORT. What each update of the state does to each field: one lemma per field per update. -/

namespace Sys2Proof.Machine

variable (s : State)

@[simp] theorem State.setEnv_cfg (v : Env) : (s.setEnv v).cfg = s.cfg := rfl
@[simp] theorem State.setEnv_env (v : Env) : (s.setEnv v).env = v := rfl
@[simp] theorem State.setEnv_handle (v : Env) : (s.setEnv v).handle = s.handle := rfl
@[simp] theorem State.setEnv_mmio (v : Env) : (s.setEnv v).mmio = s.mmio := rfl
@[simp] theorem State.setEnv_shadow (v : Env) : (s.setEnv v).shadow = s.shadow := rfl
@[simp] theorem State.setEnv_usb (v : Env) : (s.setEnv v).usb = s.usb := rfl
@[simp] theorem State.setEnv_usbHost (v : Env) : (s.setEnv v).usbHost = s.usbHost := rfl
@[simp] theorem State.setEnv_host (v : Env) : (s.setEnv v).host = s.host := rfl
@[simp] theorem State.setEnv_target (v : Env) : (s.setEnv v).target = s.target := rfl
@[simp] theorem State.setEnv_identity (v : Env) : (s.setEnv v).identity = s.identity := rfl
@[simp] theorem State.setEnv_table (v : Env) : (s.setEnv v).table = s.table := rfl
@[simp] theorem State.setEnv_ret (v : Env) : (s.setEnv v).ret = s.ret := rfl
@[simp] theorem State.setEnv_diags (v : Env) : (s.setEnv v).diags = s.diags := rfl
@[simp] theorem State.setEnv_calls (v : Env) : (s.setEnv v).calls = s.calls := rfl
@[simp] theorem State.setEnv_draws (v : Env) : (s.setEnv v).draws = s.draws := rfl
@[simp] theorem State.setEnv_statusReads (v : Env) : (s.setEnv v).statusReads = s.statusReads := rfl

@[simp] theorem State.setHandle_cfg (v : Option Handle) : (s.setHandle v).cfg = s.cfg := rfl
@[simp] theorem State.setHandle_env (v : Option Handle) : (s.setHandle v).env = s.env := rfl
@[simp] theorem State.setHandle_handle (v : Option Handle) : (s.setHandle v).handle = v := rfl
@[simp] theorem State.setHandle_mmio (v : Option Handle) : (s.setHandle v).mmio = s.mmio := rfl
@[simp] theorem State.setHandle_shadow (v : Option Handle) : (s.setHandle v).shadow = s.shadow := rfl
@[simp] theorem State.setHandle_usb (v : Option Handle) : (s.setHandle v).usb = s.usb := rfl
@[simp] theorem State.setHandle_usbHost (v : Option Handle) : (s.setHandle v).usbHost = s.usbHost := rfl
@[simp] theorem State.setHandle_host (v : Option Handle) : (s.setHandle v).host = s.host := rfl
@[simp] theorem State.setHandle_target (v : Option Handle) : (s.setHandle v).target = s.target := rfl
@[simp] theorem State.setHandle_identity (v : Option Handle) : (s.setHandle v).identity = s.identity := rfl
@[simp] theorem State.setHandle_table (v : Option Handle) : (s.setHandle v).table = s.table := rfl
@[simp] theorem State.setHandle_ret (v : Option Handle) : (s.setHandle v).ret = s.ret := rfl
@[simp] theorem State.setHandle_diags (v : Option Handle) : (s.setHandle v).diags = s.diags := rfl
@[simp] theorem State.setHandle_calls (v : Option Handle) : (s.setHandle v).calls = s.calls := rfl
@[simp] theorem State.setHandle_draws (v : Option Handle) : (s.setHandle v).draws = s.draws := rfl
@[simp] theorem State.setHandle_statusReads (v : Option Handle) : (s.setHandle v).statusReads = s.statusReads := rfl

@[simp] theorem State.setMmio_cfg (v : Mmio) : (s.setMmio v).cfg = s.cfg := rfl
@[simp] theorem State.setMmio_env (v : Mmio) : (s.setMmio v).env = s.env := rfl
@[simp] theorem State.setMmio_handle (v : Mmio) : (s.setMmio v).handle = s.handle := rfl
@[simp] theorem State.setMmio_mmio (v : Mmio) : (s.setMmio v).mmio = v := rfl
@[simp] theorem State.setMmio_shadow (v : Mmio) : (s.setMmio v).shadow = s.shadow := rfl
@[simp] theorem State.setMmio_usb (v : Mmio) : (s.setMmio v).usb = s.usb := rfl
@[simp] theorem State.setMmio_usbHost (v : Mmio) : (s.setMmio v).usbHost = s.usbHost := rfl
@[simp] theorem State.setMmio_host (v : Mmio) : (s.setMmio v).host = s.host := rfl
@[simp] theorem State.setMmio_target (v : Mmio) : (s.setMmio v).target = s.target := rfl
@[simp] theorem State.setMmio_identity (v : Mmio) : (s.setMmio v).identity = s.identity := rfl
@[simp] theorem State.setMmio_table (v : Mmio) : (s.setMmio v).table = s.table := rfl
@[simp] theorem State.setMmio_ret (v : Mmio) : (s.setMmio v).ret = s.ret := rfl
@[simp] theorem State.setMmio_diags (v : Mmio) : (s.setMmio v).diags = s.diags := rfl
@[simp] theorem State.setMmio_calls (v : Mmio) : (s.setMmio v).calls = s.calls := rfl
@[simp] theorem State.setMmio_draws (v : Mmio) : (s.setMmio v).draws = s.draws := rfl
@[simp] theorem State.setMmio_statusReads (v : Mmio) : (s.setMmio v).statusReads = s.statusReads := rfl

@[simp] theorem State.setShadow_cfg (v : Shadow) : (s.setShadow v).cfg = s.cfg := rfl
@[simp] theorem State.setShadow_env (v : Shadow) : (s.setShadow v).env = s.env := rfl
@[simp] theorem State.setShadow_handle (v : Shadow) : (s.setShadow v).handle = s.handle := rfl
@[simp] theorem State.setShadow_mmio (v : Shadow) : (s.setShadow v).mmio = s.mmio := rfl
@[simp] theorem State.setShadow_shadow (v : Shadow) : (s.setShadow v).shadow = v := rfl
@[simp] theorem State.setShadow_usb (v : Shadow) : (s.setShadow v).usb = s.usb := rfl
@[simp] theorem State.setShadow_usbHost (v : Shadow) : (s.setShadow v).usbHost = s.usbHost := rfl
@[simp] theorem State.setShadow_host (v : Shadow) : (s.setShadow v).host = s.host := rfl
@[simp] theorem State.setShadow_target (v : Shadow) : (s.setShadow v).target = s.target := rfl
@[simp] theorem State.setShadow_identity (v : Shadow) : (s.setShadow v).identity = s.identity := rfl
@[simp] theorem State.setShadow_table (v : Shadow) : (s.setShadow v).table = s.table := rfl
@[simp] theorem State.setShadow_ret (v : Shadow) : (s.setShadow v).ret = s.ret := rfl
@[simp] theorem State.setShadow_diags (v : Shadow) : (s.setShadow v).diags = s.diags := rfl
@[simp] theorem State.setShadow_calls (v : Shadow) : (s.setShadow v).calls = s.calls := rfl
@[simp] theorem State.setShadow_draws (v : Shadow) : (s.setShadow v).draws = s.draws := rfl
@[simp] theorem State.setShadow_statusReads (v : Shadow) : (s.setShadow v).statusReads = s.statusReads := rfl

@[simp] theorem State.setUsb_cfg (v : Usb) : (s.setUsb v).cfg = s.cfg := rfl
@[simp] theorem State.setUsb_env (v : Usb) : (s.setUsb v).env = s.env := rfl
@[simp] theorem State.setUsb_handle (v : Usb) : (s.setUsb v).handle = s.handle := rfl
@[simp] theorem State.setUsb_mmio (v : Usb) : (s.setUsb v).mmio = s.mmio := rfl
@[simp] theorem State.setUsb_shadow (v : Usb) : (s.setUsb v).shadow = s.shadow := rfl
@[simp] theorem State.setUsb_usb (v : Usb) : (s.setUsb v).usb = v := rfl
@[simp] theorem State.setUsb_usbHost (v : Usb) : (s.setUsb v).usbHost = s.usbHost := rfl
@[simp] theorem State.setUsb_host (v : Usb) : (s.setUsb v).host = s.host := rfl
@[simp] theorem State.setUsb_target (v : Usb) : (s.setUsb v).target = s.target := rfl
@[simp] theorem State.setUsb_identity (v : Usb) : (s.setUsb v).identity = s.identity := rfl
@[simp] theorem State.setUsb_table (v : Usb) : (s.setUsb v).table = s.table := rfl
@[simp] theorem State.setUsb_ret (v : Usb) : (s.setUsb v).ret = s.ret := rfl
@[simp] theorem State.setUsb_diags (v : Usb) : (s.setUsb v).diags = s.diags := rfl
@[simp] theorem State.setUsb_calls (v : Usb) : (s.setUsb v).calls = s.calls := rfl
@[simp] theorem State.setUsb_draws (v : Usb) : (s.setUsb v).draws = s.draws := rfl
@[simp] theorem State.setUsb_statusReads (v : Usb) : (s.setUsb v).statusReads = s.statusReads := rfl

@[simp] theorem State.setUsbHost_cfg (v : UsbHost) : (s.setUsbHost v).cfg = s.cfg := rfl
@[simp] theorem State.setUsbHost_env (v : UsbHost) : (s.setUsbHost v).env = s.env := rfl
@[simp] theorem State.setUsbHost_handle (v : UsbHost) : (s.setUsbHost v).handle = s.handle := rfl
@[simp] theorem State.setUsbHost_mmio (v : UsbHost) : (s.setUsbHost v).mmio = s.mmio := rfl
@[simp] theorem State.setUsbHost_shadow (v : UsbHost) : (s.setUsbHost v).shadow = s.shadow := rfl
@[simp] theorem State.setUsbHost_usb (v : UsbHost) : (s.setUsbHost v).usb = s.usb := rfl
@[simp] theorem State.setUsbHost_usbHost (v : UsbHost) : (s.setUsbHost v).usbHost = v := rfl
@[simp] theorem State.setUsbHost_host (v : UsbHost) : (s.setUsbHost v).host = s.host := rfl
@[simp] theorem State.setUsbHost_target (v : UsbHost) : (s.setUsbHost v).target = s.target := rfl
@[simp] theorem State.setUsbHost_identity (v : UsbHost) : (s.setUsbHost v).identity = s.identity := rfl
@[simp] theorem State.setUsbHost_table (v : UsbHost) : (s.setUsbHost v).table = s.table := rfl
@[simp] theorem State.setUsbHost_ret (v : UsbHost) : (s.setUsbHost v).ret = s.ret := rfl
@[simp] theorem State.setUsbHost_diags (v : UsbHost) : (s.setUsbHost v).diags = s.diags := rfl
@[simp] theorem State.setUsbHost_calls (v : UsbHost) : (s.setUsbHost v).calls = s.calls := rfl
@[simp] theorem State.setUsbHost_draws (v : UsbHost) : (s.setUsbHost v).draws = s.draws := rfl
@[simp] theorem State.setUsbHost_statusReads (v : UsbHost) : (s.setUsbHost v).statusReads = s.statusReads := rfl

@[simp] theorem State.setHost_cfg (v : HostSeq) : (s.setHost v).cfg = s.cfg := rfl
@[simp] theorem State.setHost_env (v : HostSeq) : (s.setHost v).env = s.env := rfl
@[simp] theorem State.setHost_handle (v : HostSeq) : (s.setHost v).handle = s.handle := rfl
@[simp] theorem State.setHost_mmio (v : HostSeq) : (s.setHost v).mmio = s.mmio := rfl
@[simp] theorem State.setHost_shadow (v : HostSeq) : (s.setHost v).shadow = s.shadow := rfl
@[simp] theorem State.setHost_usb (v : HostSeq) : (s.setHost v).usb = s.usb := rfl
@[simp] theorem State.setHost_usbHost (v : HostSeq) : (s.setHost v).usbHost = s.usbHost := rfl
@[simp] theorem State.setHost_host (v : HostSeq) : (s.setHost v).host = v := rfl
@[simp] theorem State.setHost_target (v : HostSeq) : (s.setHost v).target = s.target := rfl
@[simp] theorem State.setHost_identity (v : HostSeq) : (s.setHost v).identity = s.identity := rfl
@[simp] theorem State.setHost_table (v : HostSeq) : (s.setHost v).table = s.table := rfl
@[simp] theorem State.setHost_ret (v : HostSeq) : (s.setHost v).ret = s.ret := rfl
@[simp] theorem State.setHost_diags (v : HostSeq) : (s.setHost v).diags = s.diags := rfl
@[simp] theorem State.setHost_calls (v : HostSeq) : (s.setHost v).calls = s.calls := rfl
@[simp] theorem State.setHost_draws (v : HostSeq) : (s.setHost v).draws = s.draws := rfl
@[simp] theorem State.setHost_statusReads (v : HostSeq) : (s.setHost v).statusReads = s.statusReads := rfl

@[simp] theorem State.setTarget_cfg (v : Target) : (s.setTarget v).cfg = s.cfg := rfl
@[simp] theorem State.setTarget_env (v : Target) : (s.setTarget v).env = s.env := rfl
@[simp] theorem State.setTarget_handle (v : Target) : (s.setTarget v).handle = s.handle := rfl
@[simp] theorem State.setTarget_mmio (v : Target) : (s.setTarget v).mmio = s.mmio := rfl
@[simp] theorem State.setTarget_shadow (v : Target) : (s.setTarget v).shadow = s.shadow := rfl
@[simp] theorem State.setTarget_usb (v : Target) : (s.setTarget v).usb = s.usb := rfl
@[simp] theorem State.setTarget_usbHost (v : Target) : (s.setTarget v).usbHost = s.usbHost := rfl
@[simp] theorem State.setTarget_host (v : Target) : (s.setTarget v).host = s.host := rfl
@[simp] theorem State.setTarget_target (v : Target) : (s.setTarget v).target = v := rfl
@[simp] theorem State.setTarget_identity (v : Target) : (s.setTarget v).identity = s.identity := rfl
@[simp] theorem State.setTarget_table (v : Target) : (s.setTarget v).table = s.table := rfl
@[simp] theorem State.setTarget_ret (v : Target) : (s.setTarget v).ret = s.ret := rfl
@[simp] theorem State.setTarget_diags (v : Target) : (s.setTarget v).diags = s.diags := rfl
@[simp] theorem State.setTarget_calls (v : Target) : (s.setTarget v).calls = s.calls := rfl
@[simp] theorem State.setTarget_draws (v : Target) : (s.setTarget v).draws = s.draws := rfl
@[simp] theorem State.setTarget_statusReads (v : Target) : (s.setTarget v).statusReads = s.statusReads := rfl

@[simp] theorem State.setIdentity_cfg (v : Option DeviceIdentity) : (s.setIdentity v).cfg = s.cfg := rfl
@[simp] theorem State.setIdentity_env (v : Option DeviceIdentity) : (s.setIdentity v).env = s.env := rfl
@[simp] theorem State.setIdentity_handle (v : Option DeviceIdentity) : (s.setIdentity v).handle = s.handle := rfl
@[simp] theorem State.setIdentity_mmio (v : Option DeviceIdentity) : (s.setIdentity v).mmio = s.mmio := rfl
@[simp] theorem State.setIdentity_shadow (v : Option DeviceIdentity) : (s.setIdentity v).shadow = s.shadow := rfl
@[simp] theorem State.setIdentity_usb (v : Option DeviceIdentity) : (s.setIdentity v).usb = s.usb := rfl
@[simp] theorem State.setIdentity_usbHost (v : Option DeviceIdentity) : (s.setIdentity v).usbHost = s.usbHost := rfl
@[simp] theorem State.setIdentity_host (v : Option DeviceIdentity) : (s.setIdentity v).host = s.host := rfl
@[simp] theorem State.setIdentity_target (v : Option DeviceIdentity) : (s.setIdentity v).target = s.target := rfl
@[simp] theorem State.setIdentity_identity (v : Option DeviceIdentity) : (s.setIdentity v).identity = v := rfl
@[simp] theorem State.setIdentity_table (v : Option DeviceIdentity) : (s.setIdentity v).table = s.table := rfl
@[simp] theorem State.setIdentity_ret (v : Option DeviceIdentity) : (s.setIdentity v).ret = s.ret := rfl
@[simp] theorem State.setIdentity_diags (v : Option DeviceIdentity) : (s.setIdentity v).diags = s.diags := rfl
@[simp] theorem State.setIdentity_calls (v : Option DeviceIdentity) : (s.setIdentity v).calls = s.calls := rfl
@[simp] theorem State.setIdentity_draws (v : Option DeviceIdentity) : (s.setIdentity v).draws = s.draws := rfl
@[simp] theorem State.setIdentity_statusReads (v : Option DeviceIdentity) : (s.setIdentity v).statusReads = s.statusReads := rfl

@[simp] theorem State.setTable_cfg (v : List CalibrationPoint) : (s.setTable v).cfg = s.cfg := rfl
@[simp] theorem State.setTable_env (v : List CalibrationPoint) : (s.setTable v).env = s.env := rfl
@[simp] theorem State.setTable_handle (v : List CalibrationPoint) : (s.setTable v).handle = s.handle := rfl
@[simp] theorem State.setTable_mmio (v : List CalibrationPoint) : (s.setTable v).mmio = s.mmio := rfl
@[simp] theorem State.setTable_shadow (v : List CalibrationPoint) : (s.setTable v).shadow = s.shadow := rfl
@[simp] theorem State.setTable_usb (v : List CalibrationPoint) : (s.setTable v).usb = s.usb := rfl
@[simp] theorem State.setTable_usbHost (v : List CalibrationPoint) : (s.setTable v).usbHost = s.usbHost := rfl
@[simp] theorem State.setTable_host (v : List CalibrationPoint) : (s.setTable v).host = s.host := rfl
@[simp] theorem State.setTable_target (v : List CalibrationPoint) : (s.setTable v).target = s.target := rfl
@[simp] theorem State.setTable_identity (v : List CalibrationPoint) : (s.setTable v).identity = s.identity := rfl
@[simp] theorem State.setTable_table (v : List CalibrationPoint) : (s.setTable v).table = v := rfl
@[simp] theorem State.setTable_ret (v : List CalibrationPoint) : (s.setTable v).ret = s.ret := rfl
@[simp] theorem State.setTable_diags (v : List CalibrationPoint) : (s.setTable v).diags = s.diags := rfl
@[simp] theorem State.setTable_calls (v : List CalibrationPoint) : (s.setTable v).calls = s.calls := rfl
@[simp] theorem State.setTable_draws (v : List CalibrationPoint) : (s.setTable v).draws = s.draws := rfl
@[simp] theorem State.setTable_statusReads (v : List CalibrationPoint) : (s.setTable v).statusReads = s.statusReads := rfl

@[simp] theorem State.setRet_cfg (v : Ret) : (s.setRet v).cfg = s.cfg := rfl
@[simp] theorem State.setRet_env (v : Ret) : (s.setRet v).env = s.env := rfl
@[simp] theorem State.setRet_handle (v : Ret) : (s.setRet v).handle = s.handle := rfl
@[simp] theorem State.setRet_mmio (v : Ret) : (s.setRet v).mmio = s.mmio := rfl
@[simp] theorem State.setRet_shadow (v : Ret) : (s.setRet v).shadow = s.shadow := rfl
@[simp] theorem State.setRet_usb (v : Ret) : (s.setRet v).usb = s.usb := rfl
@[simp] theorem State.setRet_usbHost (v : Ret) : (s.setRet v).usbHost = s.usbHost := rfl
@[simp] theorem State.setRet_host (v : Ret) : (s.setRet v).host = s.host := rfl
@[simp] theorem State.setRet_target (v : Ret) : (s.setRet v).target = s.target := rfl
@[simp] theorem State.setRet_identity (v : Ret) : (s.setRet v).identity = s.identity := rfl
@[simp] theorem State.setRet_table (v : Ret) : (s.setRet v).table = s.table := rfl
@[simp] theorem State.setRet_ret (v : Ret) : (s.setRet v).ret = v := rfl
@[simp] theorem State.setRet_diags (v : Ret) : (s.setRet v).diags = s.diags := rfl
@[simp] theorem State.setRet_calls (v : Ret) : (s.setRet v).calls = s.calls := rfl
@[simp] theorem State.setRet_draws (v : Ret) : (s.setRet v).draws = s.draws := rfl
@[simp] theorem State.setRet_statusReads (v : Ret) : (s.setRet v).statusReads = s.statusReads := rfl

@[simp] theorem State.setDiags_cfg (v : List ErrorKind) : (s.setDiags v).cfg = s.cfg := rfl
@[simp] theorem State.setDiags_env (v : List ErrorKind) : (s.setDiags v).env = s.env := rfl
@[simp] theorem State.setDiags_handle (v : List ErrorKind) : (s.setDiags v).handle = s.handle := rfl
@[simp] theorem State.setDiags_mmio (v : List ErrorKind) : (s.setDiags v).mmio = s.mmio := rfl
@[simp] theorem State.setDiags_shadow (v : List ErrorKind) : (s.setDiags v).shadow = s.shadow := rfl
@[simp] theorem State.setDiags_usb (v : List ErrorKind) : (s.setDiags v).usb = s.usb := rfl
@[simp] theorem State.setDiags_usbHost (v : List ErrorKind) : (s.setDiags v).usbHost = s.usbHost := rfl
@[simp] theorem State.setDiags_host (v : List ErrorKind) : (s.setDiags v).host = s.host := rfl
@[simp] theorem State.setDiags_target (v : List ErrorKind) : (s.setDiags v).target = s.target := rfl
@[simp] theorem State.setDiags_identity (v : List ErrorKind) : (s.setDiags v).identity = s.identity := rfl
@[simp] theorem State.setDiags_table (v : List ErrorKind) : (s.setDiags v).table = s.table := rfl
@[simp] theorem State.setDiags_ret (v : List ErrorKind) : (s.setDiags v).ret = s.ret := rfl
@[simp] theorem State.setDiags_diags (v : List ErrorKind) : (s.setDiags v).diags = v := rfl
@[simp] theorem State.setDiags_calls (v : List ErrorKind) : (s.setDiags v).calls = s.calls := rfl
@[simp] theorem State.setDiags_draws (v : List ErrorKind) : (s.setDiags v).draws = s.draws := rfl
@[simp] theorem State.setDiags_statusReads (v : List ErrorKind) : (s.setDiags v).statusReads = s.statusReads := rfl

@[simp] theorem State.setCalls_cfg (v : List Byte) : (s.setCalls v).cfg = s.cfg := rfl
@[simp] theorem State.setCalls_env (v : List Byte) : (s.setCalls v).env = s.env := rfl
@[simp] theorem State.setCalls_handle (v : List Byte) : (s.setCalls v).handle = s.handle := rfl
@[simp] theorem State.setCalls_mmio (v : List Byte) : (s.setCalls v).mmio = s.mmio := rfl
@[simp] theorem State.setCalls_shadow (v : List Byte) : (s.setCalls v).shadow = s.shadow := rfl
@[simp] theorem State.setCalls_usb (v : List Byte) : (s.setCalls v).usb = s.usb := rfl
@[simp] theorem State.setCalls_usbHost (v : List Byte) : (s.setCalls v).usbHost = s.usbHost := rfl
@[simp] theorem State.setCalls_host (v : List Byte) : (s.setCalls v).host = s.host := rfl
@[simp] theorem State.setCalls_target (v : List Byte) : (s.setCalls v).target = s.target := rfl
@[simp] theorem State.setCalls_identity (v : List Byte) : (s.setCalls v).identity = s.identity := rfl
@[simp] theorem State.setCalls_table (v : List Byte) : (s.setCalls v).table = s.table := rfl
@[simp] theorem State.setCalls_ret (v : List Byte) : (s.setCalls v).ret = s.ret := rfl
@[simp] theorem State.setCalls_diags (v : List Byte) : (s.setCalls v).diags = s.diags := rfl
@[simp] theorem State.setCalls_calls (v : List Byte) : (s.setCalls v).calls = v := rfl
@[simp] theorem State.setCalls_draws (v : List Byte) : (s.setCalls v).draws = s.draws := rfl
@[simp] theorem State.setCalls_statusReads (v : List Byte) : (s.setCalls v).statusReads = s.statusReads := rfl

@[simp] theorem State.setDraws_cfg (v : Nat) : (s.setDraws v).cfg = s.cfg := rfl
@[simp] theorem State.setDraws_env (v : Nat) : (s.setDraws v).env = s.env := rfl
@[simp] theorem State.setDraws_handle (v : Nat) : (s.setDraws v).handle = s.handle := rfl
@[simp] theorem State.setDraws_mmio (v : Nat) : (s.setDraws v).mmio = s.mmio := rfl
@[simp] theorem State.setDraws_shadow (v : Nat) : (s.setDraws v).shadow = s.shadow := rfl
@[simp] theorem State.setDraws_usb (v : Nat) : (s.setDraws v).usb = s.usb := rfl
@[simp] theorem State.setDraws_usbHost (v : Nat) : (s.setDraws v).usbHost = s.usbHost := rfl
@[simp] theorem State.setDraws_host (v : Nat) : (s.setDraws v).host = s.host := rfl
@[simp] theorem State.setDraws_target (v : Nat) : (s.setDraws v).target = s.target := rfl
@[simp] theorem State.setDraws_identity (v : Nat) : (s.setDraws v).identity = s.identity := rfl
@[simp] theorem State.setDraws_table (v : Nat) : (s.setDraws v).table = s.table := rfl
@[simp] theorem State.setDraws_ret (v : Nat) : (s.setDraws v).ret = s.ret := rfl
@[simp] theorem State.setDraws_diags (v : Nat) : (s.setDraws v).diags = s.diags := rfl
@[simp] theorem State.setDraws_calls (v : Nat) : (s.setDraws v).calls = s.calls := rfl
@[simp] theorem State.setDraws_draws (v : Nat) : (s.setDraws v).draws = v := rfl
@[simp] theorem State.setDraws_statusReads (v : Nat) : (s.setDraws v).statusReads = s.statusReads := rfl

@[simp] theorem State.setStatusReads_cfg (v : Nat) : (s.setStatusReads v).cfg = s.cfg := rfl
@[simp] theorem State.setStatusReads_env (v : Nat) : (s.setStatusReads v).env = s.env := rfl
@[simp] theorem State.setStatusReads_handle (v : Nat) : (s.setStatusReads v).handle = s.handle := rfl
@[simp] theorem State.setStatusReads_mmio (v : Nat) : (s.setStatusReads v).mmio = s.mmio := rfl
@[simp] theorem State.setStatusReads_shadow (v : Nat) : (s.setStatusReads v).shadow = s.shadow := rfl
@[simp] theorem State.setStatusReads_usb (v : Nat) : (s.setStatusReads v).usb = s.usb := rfl
@[simp] theorem State.setStatusReads_usbHost (v : Nat) : (s.setStatusReads v).usbHost = s.usbHost := rfl
@[simp] theorem State.setStatusReads_host (v : Nat) : (s.setStatusReads v).host = s.host := rfl
@[simp] theorem State.setStatusReads_target (v : Nat) : (s.setStatusReads v).target = s.target := rfl
@[simp] theorem State.setStatusReads_identity (v : Nat) : (s.setStatusReads v).identity = s.identity := rfl
@[simp] theorem State.setStatusReads_table (v : Nat) : (s.setStatusReads v).table = s.table := rfl
@[simp] theorem State.setStatusReads_ret (v : Nat) : (s.setStatusReads v).ret = s.ret := rfl
@[simp] theorem State.setStatusReads_diags (v : Nat) : (s.setStatusReads v).diags = s.diags := rfl
@[simp] theorem State.setStatusReads_calls (v : Nat) : (s.setStatusReads v).calls = s.calls := rfl
@[simp] theorem State.setStatusReads_draws (v : Nat) : (s.setStatusReads v).draws = s.draws := rfl
@[simp] theorem State.setStatusReads_statusReads (v : Nat) : (s.setStatusReads v).statusReads = v := rfl

end Sys2Proof.Machine
end

