-- ==== Sys2Proof/Laws/Ops.lean ====
section
/-! SUPPORT. For each shared operation, what it can do: if it answers, then this. -/

namespace Sys2Proof.Machine

/-! ## Outcomes in sequence -/

section
variable {α β : Type}

@[simp] theorem Res.bind_ok (a : α) (s : State) (f : α → State → Res β) : (Res.ok a s).bind f = f a s := rfl
@[simp] theorem Res.bind_stuck (s : State) (f : α → State → Res β) : (Res.stuck s).bind f = .stuck s := rfl
@[simp] theorem Res.bind_fault (e : Fault) (f : α → State → Res β) : (Res.fault e).bind f = .fault e := rfl
@[simp] theorem Res.bind_refused (r : Refusal) (f : α → State → Res β) : (Res.refused r).bind f = .refused r := rfl
@[simp] theorem Res.out_ok (a : α) (s : State) (g : α → State → State) : (Res.ok a s).out g = .next (g a s) := rfl
@[simp] theorem Res.out_stuck (s : State) (g : α → State → State) : (Res.stuck s).out g = .next s := rfl
@[simp] theorem Res.out_fault (e : Fault) (g : α → State → State) : (Res.fault e).out g = .fault e := rfl
@[simp] theorem Res.out_refused (r : Refusal) (g : α → State → State) : (Res.refused r).out g = .refused r := rfl

/-- A sequence goes on exactly where both parts do. -/
theorem Res.bind_eq_ok {x : Res α} {f : α → State → Res β} {b : β} {s : State} :
    x.bind f = .ok b s ↔ ∃ a s1, x = .ok a s1 ∧ f a s1 = .ok b s := by
  cases x <;> simp [Res.bind]

/-- A sequence is stuck where its first part is, or its second. -/
theorem Res.bind_eq_stuck {x : Res α} {f : α → State → Res β} {s : State} :
    x.bind f = .stuck s ↔ x = .stuck s ∨ ∃ a s1, x = .ok a s1 ∧ f a s1 = .stuck s := by
  cases x <;> simp [Res.bind]

/-- An operation answers a next state where it went on, or where the host got stuck. -/
theorem Res.out_eq_next {x : Res α} {g : α → State → State} {t : State} :
    x.out g = .next t ↔ (∃ a s, x = .ok a s ∧ g a s = t) ∨ x = .stuck t := by
  cases x <;> simp [Res.out]

theorem Res.bind_assoc {γ : Type} (x : Res α) (f : α → State → Res β) (g : β → State → Res γ) :
    (x.bind f).bind g = x.bind fun a s => (f a s).bind g := by
  cases x <;> rfl

end

/-! ## Errors -/

/-- A raise goes on only for a soft kind, and then only the diagnostics grow (R320). -/
theorem raise_eq_ok {k : ErrorKind} {s t : State} :
    raise k s = .ok () t ↔
      (k = .detectionFailure ∨ k = .calibrationEmpty ∨ k = .hardeningRejected ∨ k = .outOfRangeParameter) ∧
        t = s.setDiags (s.diags ++ [k]) := by
  cases k <;> simp [raise, eq_comm]

/-! ## Which engine -/

theorem needHandle_eq_ok {s t : State} {h : Handle} : needHandle s = .ok h t ↔ s.handle = some h ∧ t = s := by
  cases hh : s.handle <;> simp [needHandle, hh, eq_comm]

theorem needMmio_eq_ok {s t : State} : needMmio s = .ok () t ↔ (∃ i, s.handle = some (.mmio i)) ∧ t = s := by
  unfold needMmio
  split <;> simp_all [eq_comm]

theorem needUsb_eq_ok {s t : State} : needUsb s = .ok () t ↔ (∃ a, s.handle = some (.usb a)) ∧ t = s := by
  unfold needUsb
  split <;> simp_all [eq_comm]

theorem needTarget_eq_ok {s t : State} : needTarget s = .ok () t ↔ s.handle.isSome ∧ s.mmio.busy = false ∧ t = s := by
  unfold needTarget
  rw [Res.bind_eq_ok]
  constructor
  · rintro ⟨h, s1, h1, h2⟩
    obtain ⟨hh, rfl⟩ := needHandle_eq_ok.1 h1
    split at h2
    · cases h2
    · cases h2; exact ⟨by simp [hh], by simp_all, rfl⟩
  · rintro ⟨hh, hb, rfl⟩
    obtain ⟨h, hh⟩ := Option.isSome_iff_exists.1 hh
    exact ⟨h, _, needHandle_eq_ok.2 ⟨hh, rfl⟩, by simp [hb]⟩

theorem needIdentity_eq_ok {s t : State} {d : DeviceIdentity} :
    needIdentity s = .ok d t ↔ s.identity = some d ∧ t = s := by
  cases hh : s.identity <;> simp [needIdentity, hh, eq_comm]

/-! ## Clocked cycles -/

/-- A cycle changes only the target and the index of the free values. -/
theorem clock_eq_ok {pt : Nat × Nat} {tms tdi b : Bool} {s t : State} (h : clock pt tms tdi s = .ok b t) :
    t = (s.setDraws (s.draws + 1)).setTarget t.target := by
  unfold clock at h
  split at h
  · split at h
    · cases h; simp [State.setTarget, State.setDraws, *]
    · split at h
      · cases h
      · cases h; rfl
  · cases h; rfl

/-- Cycles in a row change only the target and the index of the free values, and give one bit each. -/
theorem clockAll_eq_ok {pt : Nat × Nat} {v : List (Bool × Bool)} {bits : Bits} {s t : State}
    (h : clockAll pt v s = .ok bits t) :
    t = (s.setDraws (s.draws + v.length)).setTarget t.target ∧ bits.length = v.length := by
  induction v generalizing s bits with
  | nil => cases h; exact ⟨rfl, rfl⟩
  | cons p v ih =>
    obtain ⟨b, s1, h1, h2⟩ := Res.bind_eq_ok.1 (show _ = _ from h)
    obtain ⟨bs, s2, h3, h4⟩ := Res.bind_eq_ok.1 h2
    cases h4
    obtain ⟨e, l⟩ := ih h3
    have e1 := clock_eq_ok h1
    refine ⟨?_, by simp [l]⟩
    rw [e, e1]
    simp only [State.setTarget, State.setDraws, List.length_cons]
    congr 1
    omega

/-- A vector cut in two is the same cycles (R260). -/
theorem clockAll_append (pt : Nat × Nat) (v w : List (Bool × Bool)) (s : State) :
    clockAll pt (v ++ w) s =
      (clockAll pt v s).bind fun a s1 => (clockAll pt w s1).bind fun b s2 => .ok (a ++ b) s2 := by
  induction v generalizing s with
  | nil => simp only [List.nil_append, clockAll, Res.bind_ok]; cases clockAll pt w s <;> rfl
  | cons p v ih =>
    simp only [List.cons_append, clockAll, ih, Res.bind_assoc]
    cases clock pt p.1 p.2 s <;> simp only [Res.bind_ok, Res.bind_stuck, Res.bind_fault, Res.bind_refused]
    rename_i b s1
    cases clockAll pt v s1 <;> simp only [Res.bind_ok, Res.bind_stuck, Res.bind_fault, Res.bind_refused]
    rename_i bs s2
    cases clockAll pt w s2 <;> rfl

/-! ## The register window -/

/-- A register write that goes on changes that register of an idle sequencer and nothing else (R69, R75). -/
theorem mmioWrite_eq_ok {f : Mmio → Mmio} {s t : State} :
    mmioWrite f s = .ok () t ↔
      (∃ i, s.handle = some (.mmio i)) ∧ s.mmio.busy = false ∧ t = s.setMmio (f s.mmio) := by
  unfold mmioWrite
  rw [Res.bind_eq_ok]
  constructor
  · rintro ⟨_, s1, h1, h2⟩
    obtain ⟨hi, rfl⟩ := needMmio_eq_ok.1 h1
    split at h2
    · cases h2
    · cases h2; exact ⟨hi, by simp_all, rfl⟩
  · rintro ⟨hi, hb, rfl⟩
    exact ⟨(), s, needMmio_eq_ok.2 ⟨hi, rfl⟩, by simp [hb]⟩

/-- A bounded register write that goes on found an idle sequencer, and stored a legal value or left the register with one
diagnostic more (R26, R27, R315). -/
theorem mmioWriteIn_eq_ok {max : Nat} {v : Word} {f : Mmio → Mmio} {s t : State} :
    mmioWriteIn max v f s = .ok () t ↔
      (∃ i, s.handle = some (.mmio i)) ∧ s.mmio.busy = false ∧
        (v.toNat ≤ max ∧ t = s.setMmio (f s.mmio) ∨
          max < v.toNat ∧ t = s.setDiags (s.diags ++ [.outOfRangeParameter])) := by
  unfold mmioWriteIn
  rw [Res.bind_eq_ok]
  constructor
  · rintro ⟨_, s1, h1, h2⟩
    obtain ⟨hi, rfl⟩ := needMmio_eq_ok.1 h1
    split at h2
    · cases h2
    · rename_i hb
      refine ⟨hi, by simpa using hb, ?_⟩
      split at h2
      · exact .inr ⟨‹_›, (raise_eq_ok.1 h2).2⟩
      · cases h2; exact .inl ⟨by omega, rfl⟩
  · rintro ⟨hi, hb, ⟨hv, rfl⟩ | ⟨hv, rfl⟩⟩
    · exact ⟨(), s, needMmio_eq_ok.2 ⟨hi, rfl⟩, by simp [hb, Nat.not_lt.2 hv]⟩
    · exact ⟨(), s, needMmio_eq_ok.2 ⟨hi, rfl⟩, by simp [hb, hv, raise]⟩

/-- A start strobe that goes on found an idle sequencer and a legal length (R21, R75, R195). -/
theorem mmioStart_eq_ok {s t : State} :
    mmioStart s = .ok () t ↔
      (∃ i, s.handle = some (.mmio i)) ∧ s.mmio.busy = false ∧
        (1 ≤ s.mmio.length.toNat ∧ s.mmio.length.toNat ≤ 32) ∧
        t = s.setMmio { s.mmio with ctrl := s.cfg.ctrlStart, busy := true, count := 0 } := by
  unfold mmioStart
  rw [Res.bind_eq_ok]
  constructor
  · rintro ⟨_, s1, h1, h2⟩
    obtain ⟨hi, rfl⟩ := needMmio_eq_ok.1 h1
    split at h2
    · cases h2
    · split at h2
      · cases h2; exact ⟨hi, by simp_all, ‹_›, rfl⟩
      · cases h2
  · rintro ⟨hi, hb, hl, rfl⟩
    refine ⟨(), s, needMmio_eq_ok.2 ⟨hi, rfl⟩, ?_⟩
    rw [if_neg (by simp [hb]), if_pos (show _ ∧ _ ≤ chunkBits from hl)]
    rfl

/-- A read of STATUS takes one free value and changes nothing else (R25, R196). -/
theorem mmioStatus_eq_ok {s t : State} {w : Word} :
    mmioStatus s = .ok w t ↔
      (∃ i, s.handle = some (.mmio i)) ∧
        w = statusValue s.cfg.statusBusy (Config.freeStatus s.statusReads) s.mmio.busy ∧
        t = s.setStatusReads (s.statusReads + 1) := by
  unfold mmioStatus
  rw [Res.bind_eq_ok]
  constructor
  · rintro ⟨_, s1, h1, h2⟩
    obtain ⟨hi, rfl⟩ := needMmio_eq_ok.1 h1
    cases h2; exact ⟨hi, rfl, rfl⟩
  · rintro ⟨hi, rfl, rfl⟩
    exact ⟨(), s, needMmio_eq_ok.2 ⟨hi, rfl⟩, rfl⟩

/-- A read of TDO changes nothing (R24, R197). -/
theorem mmioTdo_eq_ok {s t : State} {w : Word} :
    mmioTdo s = .ok w t ↔ (∃ i, s.handle = some (.mmio i)) ∧ s.mmio.busy = false ∧ w = s.mmio.tdo ∧ t = s := by
  unfold mmioTdo
  rw [Res.bind_eq_ok]
  constructor
  · rintro ⟨_, s1, h1, h2⟩
    obtain ⟨hi, rfl⟩ := needMmio_eq_ok.1 h1
    split at h2
    · cases h2
    · cases h2; exact ⟨hi, by simp_all, rfl, rfl⟩
  · rintro ⟨hi, hb, rfl, rfl⟩
    exact ⟨(), _, needMmio_eq_ok.2 ⟨hi, rfl⟩, by simp [hb]⟩

/-- A read of a register that no operation reads back takes one free value and changes nothing else (U37). -/
theorem mmioReadBack_eq_ok {s t : State} {w : Word} :
    mmioReadBack s = .ok w t ↔
      (∃ i, s.handle = some (.mmio i)) ∧ w = Config.freeWord s.draws 0 ∧ t = s.setDraws (s.draws + 1) := by
  unfold mmioReadBack
  rw [Res.bind_eq_ok]
  constructor
  · rintro ⟨_, s1, h1, h2⟩
    obtain ⟨hi, rfl⟩ := needMmio_eq_ok.1 h1
    cases h2; exact ⟨hi, rfl, rfl⟩
  · rintro ⟨hi, rfl, rfl⟩
    exact ⟨(), s, needMmio_eq_ok.2 ⟨hi, rfl⟩, rfl⟩

/-- STATUS shows busy exactly while the sequencer is busy, whatever its other bits are (R25). -/
theorem showsBusy_statusValue {mask free : Word} {busy : Bool} (h : mask ≠ 0) :
    showsBusy mask (statusValue mask free busy) = busy := by
  have key : ∀ x : Word, (free &&& ~~~mask ||| x) &&& mask = x &&& mask := by
    intro x; ext i hi; simp; cases mask[i] <;> simp
  unfold showsBusy statusValue
  rw [key]
  cases busy
  · simp
  · simp only [if_true, busyBits, decide_eq_true_eq]
    split
    · simpa using h
    · rename_i hne
      intro hz
      apply hne
      rw [← hz, BitVec.and_assoc, BitVec.and_self]

/-! ## The target's operations -/

/-- A TAP keeps its constants through a cycle. -/
theorem Tap.cycle_par {t t' : Tap} {tms tdi : Bool} {free : TapRegs} (h : t.cycle tms tdi free = some t') :
    t'.par = t.par := by
  unfold Tap.cycle at h
  split at h
  · simp only [Option.map_eq_some_iff] at h
    obtain ⟨u, hu, rfl⟩ := h
    have : u.par = t.par := by
      unfold Tap.act at hu
      split at hu
      · split at hu <;> first | (cases hu; rfl) | cases hu
      · split at hu <;> first | (cases hu; rfl) | cases hu
      all_goals (cases hu; rfl)
    rw [← this]
    unfold Tap.enter
    split <;> rfl
  · cases h
    unfold Tap.cycleUnknown Tap.lose
    dsimp only
    split
    · split <;> rfl
    · rfl

/-- A latch changes the current instructions of a chain and nothing else. -/
theorem latchCode_eq_ok {f : TapParams → Bits} {s t : State} :
    latchCode f s = .ok () t ↔
      (s.handle.isSome ∧ s.mmio.busy = false) ∧
        ∃ ts, s.target = .chain ts ∧ t = s.setTarget (.chain (ts.map fun u => u.latch (f u.par))) := by
  unfold latchCode
  rw [Res.bind_eq_ok]
  constructor
  · rintro ⟨_, s1, h1, h2⟩
    obtain ⟨hh, hb, rfl⟩ := needTarget_eq_ok.1 h1
    split at h2
    · cases h2
    · cases h2; exact ⟨⟨hh, hb⟩, _, ‹_›, rfl⟩
  · rintro ⟨⟨hh, hb⟩, ts, ht, rfl⟩
    exact ⟨(), s, needTarget_eq_ok.2 ⟨hh, hb, rfl⟩, by simp [ht]⟩

/-- A TAP lost again holds the later free values alone (R48). -/
theorem Tap.lose_lose (t : Tap) (f g : TapRegs) : (t.lose f).lose g = t.lose g := rfl

/-- A chain lost again holds the later free values alone (R48). -/
theorem loseChain_loseChain (d e j : Nat) (ts : List Tap) : loseChain e j (loseChain d j ts) = loseChain e j ts := by
  induction ts generalizing j with
  | nil => rfl
  | cons t ts ih => simp [loseChain, Tap.lose_lose, ih]

/-- The same of the whole target; the loopback double has nothing to lose (R140). -/
theorem Target.lose_lose (d e : Nat) (t : Target) : (t.lose d).lose e = t.lose e := by
  cases t <;> simp [Target.lose, loseChain_loseChain]

/-! ## USB transfers -/

/-- A write transfer that is accepted takes one entry off the environment's list and changes nothing else (R317 (e)). -/
theorem usbAccept_eq_ok {s t : State} :
    usbAccept s = .ok () t ↔ s.env.writes.head? ≠ some false ∧ t = s.setEnv { s.env with writes := s.env.writes.tail } := by
  unfold usbAccept
  rcases h : s.env.writes with _ | ⟨b, rest⟩
  · have e : ({ s.env with writes := [] } : Env) = s.env := by rw [← h]
    simp only [List.head?_nil, List.tail_nil, e]
    exact ⟨fun h => ⟨by simp, by cases h; rfl⟩, fun h => by rw [h.2]; rfl⟩
  · cases b <;> simp [eq_comm]

/-! ## Construction and setters -/

/-- A construction that goes on gives the state of R47. -/
theorem openTransport_eq_ok {p : OpenParams} {s t : State} :
    openTransport p s = .ok () t ↔ s.handle = none ∧ s.canOpen p = true ∧ t = s.opened (OpenParams.handle p) := by
  unfold openTransport
  cases hh : s.handle
  · by_cases hc : s.canOpen p = true
    · simp [hc, eq_comm]
    · simp [hc, raise]
  · simp

end Sys2Proof.Machine
end

