-- ==== Sys2Proof/Laws/Kept.lean ====
section
/-! SUPPORT. What the parts of a shift and of a probe never touch: the parameters, the handle, the identity, the table,
the result, the diagnostics, the caller's operations. One lemma per operation; none needs the operation unfolded
again. -/

namespace Sys2Proof.Machine

/-- The parts of the state outside the devices and the driver are the same in both. -/
def Kept (s t : State) : Prop :=
  t.cfg = s.cfg ∧ t.handle = s.handle ∧ t.identity = s.identity ∧ t.table = s.table ∧ t.ret = s.ret
    ∧ t.diags = s.diags ∧ t.calls = s.calls

theorem Kept.refl (s : State) : Kept s s := ⟨rfl, rfl, rfl, rfl, rfl, rfl, rfl⟩

theorem Kept.trans {s t u : State} (h : Kept s t) (k : Kept t u) : Kept s u := by
  obtain ⟨h1, h2, h3, h4, h5, h6, h7⟩ := h
  obtain ⟨k1, k2, k3, k4, k5, k6, k7⟩ := k
  exact ⟨k1.trans h1, k2.trans h2, k3.trans h3, k4.trans h4, k5.trans h5, k6.trans h6, k7.trans h7⟩

/-- Wherever a part of an operation leaves a state, it keeps those parts of `s`. -/
def Res.keeps {α : Type} (x : Res α) (s : State) : Prop :=
  match x with
  | .ok _ t => Kept s t
  | .stuck t => Kept s t
  | .fault _ => True
  | .refused _ => True

section
variable {α β : Type} {s t : State}

theorem Res.keeps_ok {a : α} (h : Kept s t) : (Res.ok a t).keeps s := h
theorem Res.keeps_stuck (h : Kept s t) : (Res.stuck t : Res α).keeps s := h
theorem Res.keeps_fault {f : Fault} : (Res.fault f : Res α).keeps s := trivial
theorem Res.keeps_refused {r : Refusal} : (Res.refused r : Res α).keeps s := trivial

/-- A part that keeps them of a state that kept them keeps them. -/
theorem Res.keeps_from {x : Res α} (h : Kept s t) (k : x.keeps t) : x.keeps s := by
  cases x with
  | ok a u => exact h.trans k
  | stuck u => exact h.trans k
  | fault f => trivial
  | refused r => trivial

/-- A sequence keeps them where both its parts do. -/
theorem Res.keeps_bind {x : Res α} {f : α → State → Res β} (h : x.keeps s) (k : ∀ a t, (f a t).keeps t) :
    (x.bind f).keeps s := by
  cases x with
  | ok a t => exact Res.keeps_from h (k a t)
  | stuck t => exact h
  | fault e => trivial
  | refused r => trivial

end

theorem needHandle_keeps (s : State) : (needHandle s).keeps s := by
  unfold needHandle; split
  · exact Kept.refl s
  · trivial

theorem needMmio_keeps (s : State) : (needMmio s).keeps s := by
  unfold needMmio; split
  · exact Kept.refl s
  all_goals trivial

theorem needUsb_keeps (s : State) : (needUsb s).keeps s := by
  unfold needUsb; split
  · exact Kept.refl s
  all_goals trivial

theorem needTarget_keeps (s : State) : (needTarget s).keeps s := by
  refine Res.keeps_bind (needHandle_keeps s) fun _ t => ?_
  split
  · trivial
  · exact Kept.refl t

theorem needIdentity_keeps (s : State) : (needIdentity s).keeps s := by
  unfold needIdentity; split
  · exact Kept.refl s
  · trivial

theorem clock_keeps (pt : Nat × Nat) (tms tdi : Bool) (s : State) : (clock pt tms tdi s).keeps s := by
  cases h : clock pt tms tdi s with
  | ok b t => rw [clock_eq_ok h]; exact Kept.refl s
  | stuck t =>
    unfold clock at h
    split at h
    · split at h
      · cases h
      · split at h <;> cases h
    · cases h
  | fault f => trivial
  | refused r => trivial

theorem clockAll_keeps (pt : Nat × Nat) (v : List (Bool × Bool)) (s : State) : (clockAll pt v s).keeps s := by
  induction v generalizing s with
  | nil => exact Kept.refl s
  | cons p v ih =>
    exact Res.keeps_bind (clock_keeps pt p.1 p.2 s) fun _ t =>
      Res.keeps_bind (ih t) fun _ u => Res.keeps_ok (Kept.refl u)

/-! ## The MMIO side -/

theorem engineTick_keeps (s : State) : (engineTick s).keeps s := by
  unfold engineTick
  split
  · exact Res.keeps_bind (clock_keeps _ _ _ _) fun _ t => Res.keeps_ok (Kept.refl t)
  · exact Kept.refl s

theorem engineTicks_keeps (k : Nat) (s : State) : (engineTicks k s).keeps s := by
  induction k generalizing s with
  | zero => exact Kept.refl s
  | succ k ih =>
    unfold engineTicks
    split
    · exact Res.keeps_bind (engineTick_keeps s) fun _ t => ih t
    · exact Kept.refl s

theorem engineFinish_keeps (s : State) : (engineFinish s).keeps s := engineTicks_keeps _ s

theorem engineTurn_keeps (s : State) : (engineTurn s).keeps s := by
  unfold engineTurn
  split
  · split
    · exact Res.keeps_from (t := s.setEnv _) (Kept.refl s) (engineTicks_keeps _ _)
    · split
      · exact engineFinish_keeps s
      · exact Kept.refl s
  · exact Kept.refl s

theorem mmioWrite_keeps (f : Mmio → Mmio) (s : State) : (mmioWrite f s).keeps s := by
  refine Res.keeps_bind (needMmio_keeps s) fun _ t => ?_
  split
  · trivial
  · exact Kept.refl t

theorem mmioStart_keeps (s : State) : (mmioStart s).keeps s := by
  refine Res.keeps_bind (needMmio_keeps s) fun _ t => ?_
  split
  · trivial
  · split
    · exact Kept.refl t
    · trivial

theorem mmioStatus_keeps (s : State) : (mmioStatus s).keeps s :=
  Res.keeps_bind (needMmio_keeps s) fun _ t => Kept.refl t

theorem mmioTdo_keeps (s : State) : (mmioTdo s).keeps s := by
  refine Res.keeps_bind (needMmio_keeps s) fun _ t => ?_
  split
  · trivial
  · exact Kept.refl t

theorem mmioReadBack_keeps (s : State) : (mmioReadBack s).keeps s :=
  Res.keeps_bind (needMmio_keeps s) fun _ t => Kept.refl t

theorem busyPoll_keeps (pace : List Nat) (polls : Nat) (s : State) : (busyPoll pace polls s).keeps s := by
  induction pace generalizing polls s with
  | nil =>
    unfold busyPoll
    split
    · exact Res.keeps_bind (engineFinish_keeps s) fun _ t =>
        Res.keeps_bind (mmioStatus_keeps t) fun _ u => Kept.refl u
    · split
      · trivial
      · exact Kept.refl s
  | cons k rest ih =>
    unfold busyPoll
    refine Res.keeps_bind (Res.keeps_from (t := s.setEnv _) (Kept.refl s) (engineTicks_keeps _ _)) fun _ t => ?_
    refine Res.keeps_bind (mmioStatus_keeps t) fun v u => ?_
    split
    · split
      · trivial
      · exact ih _ u
    · exact Kept.refl u

theorem chunkWrite_keeps (first same : Bool) (f : Mmio → Mmio) (g : Shadow → Shadow) (s : State) :
    (chunkWrite first same f g s).keeps s := by
  unfold chunkWrite
  split
  · exact Kept.refl s
  · exact Res.keeps_bind (mmioWrite_keeps f s) fun _ t => Kept.refl t

theorem mmioChunk_keeps (tms tdi : List Byte) (first : Bool) (s : State) : (mmioChunk tms tdi first s).keeps s :=
  Res.keeps_bind (chunkWrite_keeps _ _ _ _ s) fun _ s1 =>
  Res.keeps_bind (chunkWrite_keeps _ _ _ _ s1) fun _ s2 =>
  Res.keeps_bind (chunkWrite_keeps _ _ _ _ s2) fun _ s3 =>
  Res.keeps_bind (mmioStart_keeps s3) fun _ s4 =>
  Res.keeps_bind (busyPoll_keeps _ _ s4) fun _ s5 =>
  Res.keeps_bind (mmioTdo_keeps s5) fun _ s6 => Kept.refl s6

theorem mmioLoop_keeps (tms tdi : List Byte) (fuel : Nat) (first : Bool) (s : State) :
    (mmioLoop tms tdi fuel first s).keeps s := by
  induction fuel generalizing first s with
  | zero => exact Kept.refl s
  | succ fuel ih =>
    unfold mmioLoop
    split
    · exact Kept.refl s
    · exact Res.keeps_bind (mmioChunk_keeps tms tdi first s) fun _ t => ih false t

theorem mmioShift_keeps (n : Nat) (tms tdi : List Byte) (s : State) : (mmioShift n tms tdi s).keeps s :=
  Res.keeps_bind (Res.keeps_from (Kept.refl s) (mmioLoop_keeps tms tdi _ _ _)) fun _ t => Kept.refl t

/-! ## The USB side -/

theorem adapterByte_keeps (e : Bool) (d : Byte) (s : State) : (adapterByte e d s).keeps s :=
  Res.keeps_bind (clockAll_keeps _ _ s) fun _ t => Kept.refl t

theorem adapterByteShift_keeps (e : Bool) (d : List Byte) (s : State) : (adapterByteShift e d s).keeps s := by
  induction d generalizing s with
  | nil => exact Kept.refl s
  | cons x d ih => exact Res.keeps_bind (adapterByte_keeps e x s) fun _ t => ih t

theorem adapterBitShift_keeps (e : Bool) (r : Nat) (d : Byte) (s : State) : (adapterBitShift e r d s).keeps s :=
  Res.keeps_bind (clockAll_keeps _ _ s) fun _ t => Kept.refl t

theorem adapterTmsShift_keeps (e : Bool) (r : Nat) (b : Byte) (s : State) : (adapterTmsShift e r b s).keeps s :=
  Res.keeps_bind (clockAll_keeps _ _ s) fun _ t => Kept.refl t

theorem adapterExec_keeps (i : Instr) (s : State) : (adapterExec i s).keeps s := by
  unfold adapterExec
  split
  · exact adapterByteShift_keeps _ _ s
  · exact adapterBitShift_keeps _ _ _ s
  · exact adapterTmsShift_keeps _ _ _ s
  · exact Kept.refl s
  · trivial

theorem adapterRun_keeps (fuel : Nat) (s : State) : (adapterRun fuel s).keeps s := by
  induction fuel generalizing s with
  | zero => exact Kept.refl s
  | succ fuel ih =>
    unfold adapterRun
    split
    · exact Kept.refl s
    · trivial
    · exact Res.keeps_bind (Res.keeps_from (t := s.setUsb _) (Kept.refl s) (adapterExec_keeps _ _)) fun _ t => ih t

theorem deviceTurn_keeps (s : State) : (deviceTurn s).keeps s := by
  refine Res.keeps_bind (engineTurn_keeps s) fun _ t => ?_
  split
  · exact adapterRun_keeps _ t
  · exact Kept.refl t

theorem usbAccept_keeps (s : State) : (usbAccept s).keeps s := by
  unfold usbAccept
  split
  · exact Kept.refl s
  · exact Kept.refl s
  · trivial

theorem usbWrite_keeps (bytes : List Byte) (s : State) : (usbWrite bytes s).keeps s :=
  Res.keeps_bind (usbAccept_keeps s) fun _ t => Res.keeps_from (Kept.refl t) (adapterRun_keeps _ _)

theorem usbRead_keeps (deliveries : List Transfer) (k : Nat) (got : List Byte) (s : State) :
    (usbRead deliveries k got s).keeps s := by
  induction deliveries generalizing k got s with
  | nil =>
    unfold usbRead
    split
    · exact Kept.refl s
    · exact Kept.refl s
  | cons d rest ih =>
    cases d with
    | error => trivial
    | bytes d =>
      unfold usbRead
      dsimp only
      split
      · exact Kept.refl s
      · exact Res.keeps_from (t := (s.setUsb _).setEnv _) (Kept.refl s) (ih _ _ _)

theorem usbFlush_keeps (s : State) : (usbFlush s).keeps s := by
  unfold usbFlush
  dsimp only
  split
  · exact Kept.refl s
  · exact Res.keeps_bind (Res.keeps_from (t := s.setUsbHost _) (Kept.refl s) (usbWrite_keeps _ _)) fun _ t =>
      Res.keeps_bind (usbRead_keeps _ _ _ t) fun _ u => Kept.refl u

theorem usbEmit_keeps (bytes : List Byte) (ds : List Descriptor) (s : State) : (usbEmit bytes ds s).keeps s := by
  refine Res.keeps_bind ?_ fun _ t => Kept.refl t
  split
  · exact Res.keeps_from (t := s.setUsbHost _) (Kept.refl s) (usbFlush_keeps _)
  · exact Kept.refl s

theorem byteArm_keeps (i : Nat) (d : Byte) (s : State) : (byteArm i d s).keeps s := by
  unfold byteArm
  split
  · exact Kept.refl s
  · refine Res.keeps_bind ?_ fun _ t => Kept.refl t
    split
    · exact usbFlush_keeps s
    · exact Kept.refl s

theorem tmsArm_keeps (i : Nat) (m d : Byte) (bits : List Nat) (s : State) : (tmsArm i m d bits s).keeps s := by
  induction bits generalizing s with
  | nil => exact Kept.refl s
  | cons b bits ih =>
    exact Res.keeps_bind (usbEmit_keeps _ _ s) fun _ t =>
      Res.keeps_from (t := t.setUsbHost _) (Kept.refl t) (ih _)

theorem usbByte_keeps (n : Nat) (tms tdi : List Byte) (s : State) : (usbByte n tms tdi s).keeps s := by
  refine Res.keeps_bind ?_ fun _ t => Kept.refl t
  split
  · exact byteArm_keeps _ _ s
  · split
    · exact usbEmit_keeps _ _ s
    · exact tmsArm_keeps _ _ _ _ s

theorem usbLoop_keeps (n : Nat) (tms tdi : List Byte) (fuel : Nat) (s : State) : (usbLoop n tms tdi fuel s).keeps s := by
  induction fuel generalizing s with
  | zero => exact Kept.refl s
  | succ fuel ih =>
    unfold usbLoop
    split
    · exact Res.keeps_bind (usbByte_keeps n tms tdi s) fun _ t => ih t
    · exact Kept.refl s

theorem usbShift_keeps (n : Nat) (tms tdi : List Byte) (s : State) : (usbShift n tms tdi s).keeps s :=
  Res.keeps_bind (Res.keeps_from (Kept.refl s) (usbLoop_keeps n tms tdi _ _)) fun _ t =>
    Res.keeps_bind (usbFlush_keeps t) fun _ u => Kept.refl u

/-! ## Shifts and probes -/

theorem shift_keeps (n : Int) (buf : List Byte) (s : State) : (shift n buf s).keeps s := by
  refine Res.keeps_bind (needHandle_keeps s) fun h t => ?_
  split
  · trivial
  · split
    · exact Kept.refl t
    · dsimp only
      split
      · exact mmioShift_keeps _ _ _ t
      · exact usbShift_keeps _ _ _ t

theorem shiftPairs_keeps (v : List (Bool × Bool)) (s : State) : (shiftPairs v s).keeps s := shift_keeps _ _ s

theorem scanChain_keeps (s : State) : (scanChain s).keeps s :=
  Res.keeps_bind (shiftPairs_keeps _ s) fun _ t => Kept.refl t

theorem probeIdcode_keeps (s : State) : (probeIdcode s).keeps s :=
  Res.keeps_bind (needHandle_keeps s) fun _ s1 =>
  Res.keeps_bind (needIdentity_keeps s1) fun _ s2 =>
  Res.keeps_bind (shiftPairs_keeps _ s2) fun _ t => Kept.refl t

theorem probeBypassVec_keeps (values : List Word) (s : State) : (probeBypassVec values s).keeps s := by
  refine Res.keeps_bind (needHandle_keeps s) fun _ s1 => Res.keeps_bind (needIdentity_keeps s1) fun d s2 => ?_
  split
  · trivial
  · exact Res.keeps_bind (shiftPairs_keeps _ s2) fun _ s3 =>
      Res.keeps_bind (shiftPairs_keeps _ s3) fun _ t => Kept.refl t

end Sys2Proof.Machine
end

