-- ==== Sys2Proof/Laws/PerInstr.lean ====
section
/-! SUPPORT. Statements about every operation as syntax. -/

namespace Sys2Proof.Laws

/-- Every operation's call begins with a tag, which is not the filler byte 0 (log entry 1). -/
def CallTag.Statement (i : Instr) : Prop :=
  ∀ c : Config, ∃ t rest, encode c i = t :: rest ∧ t ≠ 0

/-- The call of `tOpen`. -/
theorem CallTag.tOpen (p : OpenParams) : CallTag.Statement (.tOpen p) :=
  fun _ => ⟨_, _, rfl, by decide⟩

/-- The call of `tShift`. -/
theorem CallTag.tShift (n : Int) (buf : List Byte) : CallTag.Statement (.tShift n buf) :=
  fun _ => ⟨_, _, rfl, by decide⟩

/-- The call of `tSetClockDivisor`. -/
theorem CallTag.tSetClockDivisor (v : Int) : CallTag.Statement (.tSetClockDivisor v) :=
  fun _ => ⟨_, _, rfl, by decide⟩

/-- The call of `tSetTimingParam`. -/
theorem CallTag.tSetTimingParam (v : Int) : CallTag.Statement (.tSetTimingParam v) :=
  fun _ => ⟨_, _, rfl, by decide⟩

/-- The call of `jTckTestLogicReset`. -/
theorem CallTag.jTckTestLogicReset (tms tdi : Bool) : CallTag.Statement (.jTckTestLogicReset tms tdi) :=
  fun _ => ⟨_, _, rfl, by decide⟩

/-- The call of `jTckRunTestIdle`. -/
theorem CallTag.jTckRunTestIdle (tms tdi : Bool) : CallTag.Statement (.jTckRunTestIdle tms tdi) :=
  fun _ => ⟨_, _, rfl, by decide⟩

/-- The call of `jTckSelectDrScan`. -/
theorem CallTag.jTckSelectDrScan (tms tdi : Bool) : CallTag.Statement (.jTckSelectDrScan tms tdi) :=
  fun _ => ⟨_, _, rfl, by decide⟩

/-- The call of `jTckCaptureDr`. -/
theorem CallTag.jTckCaptureDr (tms tdi : Bool) : CallTag.Statement (.jTckCaptureDr tms tdi) :=
  fun _ => ⟨_, _, rfl, by decide⟩

/-- The call of `jTckShiftDr`. -/
theorem CallTag.jTckShiftDr (tms tdi : Bool) : CallTag.Statement (.jTckShiftDr tms tdi) :=
  fun _ => ⟨_, _, rfl, by decide⟩

/-- The call of `jTckExit1Dr`. -/
theorem CallTag.jTckExit1Dr (tms tdi : Bool) : CallTag.Statement (.jTckExit1Dr tms tdi) :=
  fun _ => ⟨_, _, rfl, by decide⟩

/-- The call of `jTckPauseDr`. -/
theorem CallTag.jTckPauseDr (tms tdi : Bool) : CallTag.Statement (.jTckPauseDr tms tdi) :=
  fun _ => ⟨_, _, rfl, by decide⟩

/-- The call of `jTckExit2Dr`. -/
theorem CallTag.jTckExit2Dr (tms tdi : Bool) : CallTag.Statement (.jTckExit2Dr tms tdi) :=
  fun _ => ⟨_, _, rfl, by decide⟩

/-- The call of `jTckUpdateDr`. -/
theorem CallTag.jTckUpdateDr (tms tdi : Bool) : CallTag.Statement (.jTckUpdateDr tms tdi) :=
  fun _ => ⟨_, _, rfl, by decide⟩

/-- The call of `jTckSelectIrScan`. -/
theorem CallTag.jTckSelectIrScan (tms tdi : Bool) : CallTag.Statement (.jTckSelectIrScan tms tdi) :=
  fun _ => ⟨_, _, rfl, by decide⟩

/-- The call of `jTckCaptureIr`. -/
theorem CallTag.jTckCaptureIr (tms tdi : Bool) : CallTag.Statement (.jTckCaptureIr tms tdi) :=
  fun _ => ⟨_, _, rfl, by decide⟩

/-- The call of `jTckShiftIr`. -/
theorem CallTag.jTckShiftIr (tms tdi : Bool) : CallTag.Statement (.jTckShiftIr tms tdi) :=
  fun _ => ⟨_, _, rfl, by decide⟩

/-- The call of `jTckExit1Ir`. -/
theorem CallTag.jTckExit1Ir (tms tdi : Bool) : CallTag.Statement (.jTckExit1Ir tms tdi) :=
  fun _ => ⟨_, _, rfl, by decide⟩

/-- The call of `jTckPauseIr`. -/
theorem CallTag.jTckPauseIr (tms tdi : Bool) : CallTag.Statement (.jTckPauseIr tms tdi) :=
  fun _ => ⟨_, _, rfl, by decide⟩

/-- The call of `jTckExit2Ir`. -/
theorem CallTag.jTckExit2Ir (tms tdi : Bool) : CallTag.Statement (.jTckExit2Ir tms tdi) :=
  fun _ => ⟨_, _, rfl, by decide⟩

/-- The call of `jTckUpdateIr`. -/
theorem CallTag.jTckUpdateIr (tms tdi : Bool) : CallTag.Statement (.jTckUpdateIr tms tdi) :=
  fun _ => ⟨_, _, rfl, by decide⟩

/-- The call of `jIdcode`. -/
theorem CallTag.jIdcode : CallTag.Statement (.jIdcode) :=
  fun _ => ⟨_, _, rfl, by decide⟩

/-- The call of `jBypass`. -/
theorem CallTag.jBypass : CallTag.Statement (.jBypass) :=
  fun _ => ⟨_, _, rfl, by decide⟩

/-- The call of `mWrLength`. -/
theorem CallTag.mWrLength (v : Word) : CallTag.Statement (.mWrLength v) :=
  fun _ => ⟨_, _, rfl, by decide⟩

/-- The call of `mWrTms`. -/
theorem CallTag.mWrTms (v : Word) : CallTag.Statement (.mWrTms v) :=
  fun _ => ⟨_, _, rfl, by decide⟩

/-- The call of `mWrTdi`. -/
theorem CallTag.mWrTdi (v : Word) : CallTag.Statement (.mWrTdi v) :=
  fun _ => ⟨_, _, rfl, by decide⟩

/-- The call of `mWrStart`. -/
theorem CallTag.mWrStart : CallTag.Statement (.mWrStart) :=
  fun _ => ⟨_, _, rfl, by decide⟩

/-- The call of `mRdStatus`. -/
theorem CallTag.mRdStatus : CallTag.Statement (.mRdStatus) :=
  fun _ => ⟨_, _, rfl, by decide⟩

/-- The call of `mRdTdo`. -/
theorem CallTag.mRdTdo : CallTag.Statement (.mRdTdo) :=
  fun _ => ⟨_, _, rfl, by decide⟩

/-- The call of `mWrClkdiv`. -/
theorem CallTag.mWrClkdiv (v : Word) : CallTag.Statement (.mWrClkdiv v) :=
  fun _ => ⟨_, _, rfl, by decide⟩

/-- The call of `mWrDelay`. -/
theorem CallTag.mWrDelay (v : Word) : CallTag.Statement (.mWrDelay v) :=
  fun _ => ⟨_, _, rfl, by decide⟩

/-- The call of `uByteShift`. -/
theorem CallTag.uByteShift (e : Bool) (d : List Byte) : CallTag.Statement (.uByteShift e d) :=
  fun _ => ⟨_, _, rfl, by decide⟩

/-- The call of `uBitShift`. -/
theorem CallTag.uBitShift (e : Bool) (r : Nat) (d : Byte) : CallTag.Statement (.uBitShift e r d) :=
  fun _ => ⟨_, _, rfl, by decide⟩

/-- The call of `uTmsShift`. -/
theorem CallTag.uTmsShift (e : Bool) (r : Nat) (b : Byte) : CallTag.Statement (.uTmsShift e r b) :=
  fun _ => ⟨_, _, rfl, by decide⟩

/-- The call of `uSetDivisor`. -/
theorem CallTag.uSetDivisor (div : Half) : CallTag.Statement (.uSetDivisor div) :=
  fun _ => ⟨_, _, rfl, by decide⟩

/-- The call of `uFlush`. -/
theorem CallTag.uFlush : CallTag.Statement (.uFlush) :=
  fun _ => ⟨_, _, rfl, by decide⟩

/-- The call of `pProbeIdcode`. -/
theorem CallTag.pProbeIdcode : CallTag.Statement (.pProbeIdcode) :=
  fun _ => ⟨_, _, rfl, by decide⟩

/-- The call of `pScanChain`. -/
theorem CallTag.pScanChain : CallTag.Statement (.pScanChain) :=
  fun _ => ⟨_, _, rfl, by decide⟩

/-- The call of `pDetect`. -/
theorem CallTag.pDetect : CallTag.Statement (.pDetect) :=
  fun _ => ⟨_, _, rfl, by decide⟩

/-- The call of `pProbeBypass`. -/
theorem CallTag.pProbeBypass (value : Word) : CallTag.Statement (.pProbeBypass value) :=
  fun _ => ⟨_, _, rfl, by decide⟩

/-- The call of `pProbeBypassVec`. -/
theorem CallTag.pProbeBypassVec (values : List Word) : CallTag.Statement (.pProbeBypassVec values) :=
  fun _ => ⟨_, _, rfl, by decide⟩

end Sys2Proof.Laws
end

