-- ==== Sys2Proof/Tests/Slice0.lean ====
section
/-! SUPPORT. The model's own tests: what well-formedness refuses, words written out from the spec's encodings, the
spec's vectors (`95_test_vectors.md`), and a witness for the hypotheses of every statement. -/

set_option Elab.async false

namespace Sys2Proof.Machine.Tests

/-! ## Small states -/

/-- An MMIO instance. -/
def onMmio : State := State.reset.setHandle (some (.mmio 0))
/-- A USB instance. -/
def onUsb : State := State.reset.setHandle (some (.usb { vid := 0, pid := 0, serial := [], interface := 0 }))
/-- A USB instance whose TMS level is 0 on both sides. -/
def usbLow : State := onUsb.setUsbHost { onUsb.usbHost with tmsLevel := some false }
/-- The function `f = tdi` of the loopback double. -/
def fTdi : LoopFn := { f00 := false, f01 := true, f10 := false, f11 := true }
/-- The function `f = tms xor tdi` of the loopback double. -/
def fXor : LoopFn := { f00 := false, f01 := true, f10 := true, f11 := false }
/-- The instance with the loopback double. -/
def looped (s : State) (f : LoopFn) : State := s.setTarget (.loopback f)
/-- The illustrative TAP known to be in a state. -/
def tapIn (x : TapState) : Tap := { Tap.atReset with known := true, state := x }
/-- The instance with that TAP. -/
def withTap (s : State) (t : Tap) : State := s.setTarget (.chain [t])
/-- The illustrative identity. -/
def identity : DeviceIdentity := { idcode := 0x0362D093, irLength := 6, idCommand := 0x09, description := "example" }

/-- The result an operation gave, if it gave a next state. -/
def resultOf (o : Host.Outcome State Fault Refusal) : Option Ret :=
  match o with
  | .next s => some s.ret
  | .fault _ => none
  | .refused _ => none

/-- A view of the next state, if there is one. -/
def view {α : Type} (f : State → α) (o : Host.Outcome State Fault Refusal) : Option α :=
  match o with
  | .next s => some (f s)
  | .fault _ => none
  | .refused _ => none

/-- The refusal, if there is one. -/
def refusalOf (o : Host.Outcome State Fault Refusal) : Option Refusal :=
  match o with
  | .next _ => none
  | .fault _ => none
  | .refused r => some r

/-- The fault, if there is one. -/
def faultOf (o : Host.Outcome State Fault Refusal) : Option Fault :=
  match o with
  | .next _ => none
  | .fault f => some f
  | .refused _ => none

/-- The bits of a row of cycles. -/
def bitsOf (r : Res Bits) : Bits :=
  match r with
  | .ok b _ => b
  | .stuck _ => []
  | .fault _ => []
  | .refused _ => []

/-- The single TAP a row of cycles leaves. -/
def tapAfter (r : Res Bits) : Option Tap :=
  match r with
  | .ok _ s => match s.target with
    | .chain [t] => some t
    | .chain _ => none
    | .loopback _ => none
  | .stuck _ => none
  | .fault _ => none
  | .refused _ => none


/-! ## What well-formedness refuses -/

theorem test_ill_formed_open_index : Instr.wellFormed (.tOpen (.mmio (2 ^ 32))) = false := by decide
theorem test_ill_formed_open_interface : Instr.wellFormed (.tOpen (.usb { vid := 0, pid := 0, serial := [], interface := 2 ^ 32 })) = false := by decide
theorem test_ill_formed_shift_negative : Instr.wellFormed (.tShift (-1) []) = false := by decide
theorem test_ill_formed_shift_short_buffer : Instr.wellFormed (.tShift 9 [0, 0, 0]) = false := by decide
theorem test_ill_formed_shift_long_buffer : Instr.wellFormed (.tShift 8 [0, 0, 0]) = false := by decide
theorem test_ill_formed_divisor_too_wide : Instr.wellFormed (.tSetClockDivisor (2 ^ 63)) = false := by decide
theorem test_ill_formed_timing_too_wide : Instr.wellFormed (.tSetTimingParam (-(2 ^ 63) - 1)) = false := by decide
theorem test_ill_formed_byte_shift_empty : Instr.wellFormed (.uByteShift false []) = false := by decide
theorem test_ill_formed_bit_shift_none : Instr.wellFormed (.uBitShift false 0 0) = false := by decide
theorem test_ill_formed_bit_shift_nine : Instr.wellFormed (.uBitShift false 9 0) = false := by decide
theorem test_ill_formed_tms_shift_none : Instr.wellFormed (.uTmsShift false 0 0) = false := by decide
theorem test_ill_formed_tms_shift_eight : Instr.wellFormed (.uTmsShift false 8 0) = false := by decide
theorem test_ill_formed_no_payload : Instr.wellFormed (.pProbeBypassVec []) = false := by decide

/-! ## Decoding: every constructor from a word written out from its format -/

/-- R91: backend, UIO_INDEX (the bytes are the model's, log entry 1). -/
theorem test_decode_tOpen_mmio : decode Config.default [0x01, 0x00, 0x03, 0x00, 0x00, 0x00] = .ok (.tOpen (.mmio 3)) [] := by decide
theorem test_decode_tOpen_usb : decode Config.default [0x01, 0x01, 0x03, 0x04, 0x10, 0x60, 0x01, 0x00, 0x00, 0x00, 0x02, 0x00, 0x00, 0x00, 0x41, 0x42] = .ok (.tOpen (.usb { vid := 0x0403, pid := 0x6010, serial := [0x41, 0x42], interface := 1 })) [] := by decide
/-- R92: n, the TMS half, the TDI half. -/
theorem test_decode_tShift : decode Config.default [0x02, 0x05, 0x00, 0x00, 0x00, 0x00, 0x00, 0x00, 0x00, 0x1F, 0x00] = .ok (.tShift 5 [0x1F, 0x00]) [] := by decide
theorem test_decode_tSetClockDivisor : decode Config.default [0x03, 0x2C, 0x01, 0x00, 0x00, 0x00, 0x00, 0x00, 0x00] = .ok (.tSetClockDivisor 300) [] := by decide
theorem test_decode_tSetTimingParam : decode Config.default [0x04, 0xFF, 0xFF, 0xFF, 0xFF, 0xFF, 0xFF, 0xFF, 0xFF] = .ok (.tSetTimingParam (-1)) [] := by decide
/-- The table's pattern 1111md with m = 0, d = 1. -/
theorem test_decode_jTckTestLogicReset : decode Config.default [0x05, 0b00111101] = .ok (.jTckTestLogicReset false true) [] := by decide
/-- The table's pattern 1100md with m = 1, d = 0. -/
theorem test_decode_jTckRunTestIdle : decode Config.default [0x05, 0b00110010] = .ok (.jTckRunTestIdle true false) [] := by decide
/-- The table's pattern 0111md with m = 1, d = 1. -/
theorem test_decode_jTckSelectDrScan : decode Config.default [0x05, 0b00011111] = .ok (.jTckSelectDrScan true true) [] := by decide
/-- The table's pattern 0110md with m = 0, d = 0. -/
theorem test_decode_jTckCaptureDr : decode Config.default [0x05, 0b00011000] = .ok (.jTckCaptureDr false false) [] := by decide
/-- The table's pattern 0010md with m = 1, d = 0. -/
theorem test_decode_jTckShiftDr : decode Config.default [0x05, 0b00001010] = .ok (.jTckShiftDr true false) [] := by decide
/-- The table's pattern 0001md with m = 0, d = 1. -/
theorem test_decode_jTckExit1Dr : decode Config.default [0x05, 0b00000101] = .ok (.jTckExit1Dr false true) [] := by decide
/-- The table's pattern 0011md with m = 1, d = 1. -/
theorem test_decode_jTckPauseDr : decode Config.default [0x05, 0b00001111] = .ok (.jTckPauseDr true true) [] := by decide
/-- The table's pattern 0000md with m = 0, d = 1. -/
theorem test_decode_jTckExit2Dr : decode Config.default [0x05, 0b00000001] = .ok (.jTckExit2Dr false true) [] := by decide
/-- The table's pattern 0101md with m = 1, d = 0. -/
theorem test_decode_jTckUpdateDr : decode Config.default [0x05, 0b00010110] = .ok (.jTckUpdateDr true false) [] := by decide
/-- The table's pattern 0100md with m = 0, d = 0. -/
theorem test_decode_jTckSelectIrScan : decode Config.default [0x05, 0b00010000] = .ok (.jTckSelectIrScan false false) [] := by decide
/-- The table's pattern 1110md with m = 0, d = 1. -/
theorem test_decode_jTckCaptureIr : decode Config.default [0x05, 0b00111001] = .ok (.jTckCaptureIr false true) [] := by decide
/-- The table's pattern 1010md with m = 1, d = 1. -/
theorem test_decode_jTckShiftIr : decode Config.default [0x05, 0b00101011] = .ok (.jTckShiftIr true true) [] := by decide
/-- The table's pattern 1001md with m = 1, d = 0. -/
theorem test_decode_jTckExit1Ir : decode Config.default [0x05, 0b00100110] = .ok (.jTckExit1Ir true false) [] := by decide
/-- The table's pattern 1011md with m = 0, d = 1. -/
theorem test_decode_jTckPauseIr : decode Config.default [0x05, 0b00101101] = .ok (.jTckPauseIr false true) [] := by decide
/-- The table's pattern 1000md with m = 1, d = 0. -/
theorem test_decode_jTckExit2Ir : decode Config.default [0x05, 0b00100010] = .ok (.jTckExit2Ir true false) [] := by decide
/-- The table's pattern 1101md with m = 0, d = 1. -/
theorem test_decode_jTckUpdateIr : decode Config.default [0x05, 0b00110101] = .ok (.jTckUpdateIr false true) [] := by decide
theorem test_decode_jIdcode : decode Config.default [0x06] = .ok (.jIdcode) [] := by decide
theorem test_decode_jBypass : decode Config.default [0x07] = .ok (.jBypass) [] := by decide
/-- R96, R77: the offset, a write, the value. -/
theorem test_decode_mWrLength : decode Config.default [0x08, 0x00, 0x00, 0x00, 0x00, 0x00, 0x08, 0x00, 0x00, 0x00] = .ok (.mWrLength 0x8) [] := by decide
/-- R96, R77: the offset, a write, the value. -/
theorem test_decode_mWrTms : decode Config.default [0x08, 0x04, 0x00, 0x00, 0x00, 0x00, 0x1F, 0x00, 0x00, 0x00] = .ok (.mWrTms 0x1F) [] := by decide
/-- R96, R77: the offset, a write, the value. -/
theorem test_decode_mWrTdi : decode Config.default [0x08, 0x08, 0x00, 0x00, 0x00, 0x00, 0x40, 0x02, 0x00, 0x00] = .ok (.mWrTdi 0x240) [] := by decide
/-- R96, R77: the offset, a write, the value. -/
theorem test_decode_mWrClkdiv : decode Config.default [0x08, 0x14, 0x00, 0x00, 0x00, 0x00, 0x04, 0x00, 0x00, 0x00] = .ok (.mWrClkdiv 0x4) [] := by decide
/-- R96, R77: the offset, a write, the value. -/
theorem test_decode_mWrDelay : decode Config.default [0x08, 0x18, 0x00, 0x00, 0x00, 0x00, 0x03, 0x00, 0x00, 0x00] = .ok (.mWrDelay 0x3) [] := by decide
theorem test_decode_mWrStart : decode Config.default [0x08, 0x10, 0x00, 0x00, 0x00, 0x00, 0x01, 0x00, 0x00, 0x00] = .ok (.mWrStart) [] := by decide
theorem test_decode_mRdStatus : decode Config.default [0x08, 0x10, 0x00, 0x00, 0x00, 0x01] = .ok (.mRdStatus) [] := by decide
theorem test_decode_mRdTdo : decode Config.default [0x08, 0x0C, 0x00, 0x00, 0x00, 0x01] = .ok (.mRdTdo) [] := by decide
/-- R222's example. -/
theorem test_decode_uByteShift : decode Config.default [0x09, 0x39, 0x01, 0x00, 0xA5, 0x3C] = .ok (.uByteShift false [0xA5, 0x3C]) [] := by decide
/-- V-U5. -/
theorem test_decode_uByteShift_falling : decode Config.default [0x09, 0x3D, 0x00, 0x00, 0xA5] = .ok (.uByteShift true [0xA5]) [] := by decide
/-- R223's example. -/
theorem test_decode_uBitShift : decode Config.default [0x09, 0x3B, 0x03, 0x0A] = .ok (.uBitShift false 4 0x0A) [] := by decide
/-- R224's example. -/
theorem test_decode_uTmsShift : decode Config.default [0x09, 0x6B, 0x00, 0x81] = .ok (.uTmsShift false 1 0x81) [] := by decide
/-- V-S3. -/
theorem test_decode_uSetDivisor : decode Config.default [0x09, 0x86, 0x2C, 0x01] = .ok (.uSetDivisor 300) [] := by decide
theorem test_decode_uFlush : decode Config.default [0x0A] = .ok (.uFlush) [] := by decide
theorem test_decode_pProbeIdcode : decode Config.default [0x0B] = .ok (.pProbeIdcode) [] := by decide
theorem test_decode_pScanChain : decode Config.default [0x0C] = .ok (.pScanChain) [] := by decide
theorem test_decode_pDetect : decode Config.default [0x0D] = .ok (.pDetect) [] := by decide
theorem test_decode_pProbeBypass : decode Config.default [0x0E, 0xEF, 0xBE, 0xAD, 0xDE] = .ok (.pProbeBypass 0xDEADBEEF) [] := by decide
theorem test_decode_pProbeBypassVec : decode Config.default [0x0F, 0x02, 0x00, 0x00, 0x00, 0x01, 0x00, 0x00, 0x00, 0x00, 0x00, 0x00, 0x80] = .ok (.pProbeBypassVec [0x00000001, 0x80000000]) [] := by decide

/-- R104: a byte that begins no command of R102. -/
theorem test_command_unknown : decodeCommand Config.default [0x3A, 0x00, 0x00] = .bad .unknownCommandByte := by decide
/-- R97: a command is executed once all its bytes are there. -/
theorem test_command_waits : decodeCommand Config.default [0x39, 0x01, 0x00, 0xA5] = .incomplete := by decide
/-- R99: the length byte holds r - 1, r up to 8. -/
theorem test_bit_count : decodeCommand Config.default [0x3B, 0x08, 0x00] = .bad .bitCount := by decide
/-- R66. -/
theorem test_access_misaligned : decodeAccess Config.default 0x02 1 [] = .bad .misalignedOffset := by decide
/-- R66. -/
theorem test_access_outside : decodeAccess Config.default 0x20 1 [] = .bad .outsideWindow := by decide
/-- Every J1 word runs as the first operation after reset (log entry 27). -/
theorem test_fetched_rows : ((List.range 64).all fun w => runs (step (State.reset.withFetchWord 6 w))) = true := by decide +kernel
/-- So does every word the table gives a match for. -/
theorem test_fetched_bytes : ([0x00, 0x04, 0x08, 0x0C, 0x10, 0x39, 0x3B, 0x6B, 0x86].all fun w => runs (step (State.reset.withFetchWord 8 w))) = true := by decide +kernel

/-! ## The target (`41_tap_fsm.md`) -/

/-- R163's example and R167: TDI 1 0 0 1 0 0 leaves 0x09, latched on entering Update-IR. -/
theorem test_shift_ir_installs : (tapAfter (clockAll (0, 0) ([(false, true), (false, false), (false, false), (false, true), (false, false), (true, false), (true, false)]) (withTap onMmio (tapIn .shiftIr)))).map (fun t => (t.state, natOfBits t.instr)) = some (.updateIr, 0x09) := by decide
/-- V-J2: bit 0 first. -/
theorem test_idcode_bits : (bitsOf (clockAll (0, 0) ((false, false) :: (List.replicate 32 (false, false))) (withTap onMmio (tapIn .captureDr)))).drop 1 = bitsOfNat 32 0x0362D093 := by decide
/-- V-J5: TDI 1 0 1 1 gives TDO 0 1 0 1. -/
theorem test_bypass_delay : (bitsOf (clockAll (0, 0) [(false, false), (false, true), (false, false), (false, true), (false, true)] (withTap onMmio { tapIn .captureDr with instr := List.replicate 6 true }))).drop 1 = [false, true, false, true] := by decide
/-- R156's example. -/
theorem test_shift_dr_example : (tapAfter (clockAll (0, 0) [(false, false)] (withTap onMmio { tapIn .shiftDr with drSr := bitsOfNat 32 0x0362D093 }))).map (fun t => natOfBits t.drSr) = some 0x01B16849 := by decide
/-- V-J4: IR_CAPTURE in bits 5 to 10, the bypass pipeline in bits 15 to 22. -/
theorem test_ir_then_dr_scan : (let b := bitsOf (clockAll (0, 0)
      [(false, false), (true, false), (true, false), (false, false), (false, false), (false, true), (false, true), (false, true), (false, true), (false, true), (true, true), (true, false), (true, false), (false, false), (false, false), (false, true), (false, false), (false, true), (false, true), (false, false), (false, false), (false, true), (true, false), (true, false), (false, false)]
      (withTap onMmio (tapIn .testLogicReset)))
    ((b.drop 5).take 6, (b.drop 15).take 8)) =
      ([true, false, false, false, false, false], [false, true, false, true, true, false, false, true]) := by decide +kernel
/-- V-J7. -/
theorem test_reserved_refused : refusalOf (exec (.jTckCaptureDr false false) (withTap onMmio { tapIn .captureDr with instr := bitsOfNat 6 0x05 })) = some .reservedTapInstruction := by decide
/-- R168: Shift-DR needs five ones. -/
theorem test_known_reset_walk : (tapAfter (clockAll (0, 0) (List.replicate 5 (true, false)) (withTap onMmio (tapIn .shiftDr)))).map (fun t => (t.known, t.state)) = some (true, .testLogicReset) := by decide
/-- R151: five ones make an unspecified TAP known. -/
theorem test_unknown_reset_walk : (tapAfter (clockAll (0, 0) (List.replicate 5 (true, false)) onMmio)).map (fun t => (t.known, t.state, t.instr)) = some (true, .testLogicReset, bitsOfNat 6 0x09) := by decide
/-- R151: four do not. -/
theorem test_four_ones_unknown : (tapAfter (clockAll (0, 0) (List.replicate 4 (true, false)) onMmio)).map (fun t => t.known) = some false := by decide
/-- R48, V-S6. -/
theorem test_invalid_point_loses_the_target : (tapAfter (clockAll (4, 2) [(false, false)] (withTap (onMmio.setEnv { onMmio.env with allValid := false }) (tapIn .runTestIdle)))).map (fun t => t.known) = some false := by decide

/-! ## The MMIO backend (vectors V-M1 to V-M10) -/

/-- V-M1. -/
theorem test_vm1 : resultOf (exec (.tShift 5 [0x1F, 0x15]) (looped onMmio fTdi)) = some (.bytes [0x15]) := by decide +kernel
/-- V-M2: the little-endian chunk word. -/
theorem test_vm2 : resultOf (exec (.tShift 32 [0x0F, 0x0F, 0x00, 0xFF, 0x12, 0x34, 0x56, 0x78]) (looped onMmio fXor)) = some (.bytes [0x1D, 0x3B, 0x56, 0x87]) := by decide +kernel
/-- V-M3. -/
theorem test_vm3 : resultOf (exec (.tShift 40 [0x00, 0x00, 0x00, 0x00, 0x00, 0xEF, 0xBE, 0xAD, 0xDE, 0x5A]) (looped onMmio fTdi)) = some (.bytes [0xEF, 0xBE, 0xAD, 0xDE, 0x5A]) := by decide +kernel
/-- V-M4: a last chunk of one bit. -/
theorem test_vm4 : resultOf (exec (.tShift 33 [0x00, 0x00, 0x00, 0x00, 0x01, 0xFF, 0xFF, 0xFF, 0xFF, 0x01]) (looped onMmio fTdi)) = some (.bytes [0xFF, 0xFF, 0xFF, 0xFF, 0x01]) := by decide +kernel
/-- V-M5. -/
theorem test_vm5 : resultOf (exec (.tShift 1 [0x01, 0x01]) (looped onMmio fXor)) = some (.bytes [0x00]) := by decide +kernel
/-- V-M8. -/
theorem test_vm8 : resultOf (exec (.tShift 10 [0x00, 0x00, 0xA5, 0x02]) (looped onMmio fTdi)) = some (.bytes [0xA5, 0x02]) := by decide +kernel
/-- V-M1: the raw register. -/
theorem test_vm1_tdo_register : view (fun s => s.mmio.tdo) (exec (.tShift 5 [0x1F, 0x15]) (looped onMmio fTdi)) = some 0xA8000000 := by decide +kernel
/-- V-M6: the first chunk's writes are not elided. -/
theorem test_vm6_no_stale_bits : resultOf (exec (.tShift 8 [0x00, 0x00]) (looped (onMmio.setMmio { onMmio.mmio with length := 8, tms := 0xFF, tdi := 0xA5 }) fTdi)) = some (.bytes [0x00]) := by decide +kernel
/-- V-M9: a sequencer that never clears busy, POLL_LIMIT = 4. -/
theorem test_vm9_timeout : faultOf (exec (.tShift 8 [0x00, 0x00]) { looped onMmio fTdi with cfg := { Config.default with pollLimit := 4 }, env := { Env.atReset with engineAlive := false } }) = some .transportTimeout := by decide +kernel
/-- V-M10. -/
theorem test_vm10_stale_low_bits : view (fun s => (s.ret, s.mmio.tdo)) (exec (.tShift 5 [0x00, 0x15]) (looped (onMmio.setMmio { onMmio.mmio with tdo := 0xFFFFFFFF }) fTdi)) = some (.bytes [0x15], 0xAFFFFFFF) := by decide +kernel
/-- R197's example: the run is over before the next operation reads TDO. -/
theorem test_engine_between_calls : view (fun s => (s.mmio.busy, s.ret)) (step ((looped (onMmio.setMmio { onMmio.mmio with busy := true, length := 10, tdi := 0x2A5 }) fTdi).setCalls [0x08, 0x0C, 0, 0, 0, 1])) = some (false, .word 0xA9400000) := by decide +kernel

/-! ## The USB backend (vectors V-U1 to V-U11) -/

/-- V-U1. -/
theorem test_vu1 : resultOf (exec (.tShift 16 [0x00, 0x00, 0xA5, 0x3C]) (looped usbLow fTdi)) = some (.bytes [0xA5, 0x3C]) := by decide +kernel
/-- V-U2: all three kinds of command. -/
theorem test_vu2 : resultOf (exec (.tShift 29 [0x5F, 0x00, 0x00, 0x00, 0x00, 0xA5, 0x3C, 0x15]) (looped usbLow fXor)) = some (.bytes [0x5F, 0xA5, 0x3C, 0x15]) := by decide +kernel
/-- V-U3: the guard on the held level. -/
theorem test_vu3 : resultOf (exec (.tShift 16 [0x80, 0x00, 0xFF, 0x0F]) (looped usbLow fXor)) = some (.bytes [0x7F, 0x0F]) := by decide +kernel
/-- V-U4. -/
theorem test_vu4 : resultOf (exec (.tShift 48 [0x00, 0x00, 0x00, 0x00, 0x00, 0x00, 0x01, 0x02, 0x03, 0x04, 0x05, 0x06]) (looped { usbLow with cfg := { Config.default with cmdBudgetBytes := 8 } } fTdi)) = some (.bytes [0x01, 0x02, 0x03, 0x04, 0x05, 0x06]) := by decide +kernel
/-- V-U4b. -/
theorem test_vu4b : resultOf (exec (.tShift 32 [0x00, 0x00, 0x00, 0x00, 0x01, 0x02, 0x03, 0x04]) (looped { usbLow with cfg := { Config.default with descBudget := 2 } } fTdi)) = some (.bytes [0x01, 0x02, 0x03, 0x04]) := by decide +kernel
/-- V-U6: the level not known. -/
theorem test_vu6 : resultOf (exec (.tShift 8 [0x00, 0xA5]) (looped onUsb fTdi)) = some (.bytes [0xA5]) := by decide +kernel
/-- V-U7. -/
theorem test_vu7 : resultOf (exec (.tShift 3 [0x04, 0x05]) (looped usbLow fXor)) = some (.bytes [0x01]) := by decide +kernel
/-- V-U8: pad bits. -/
theorem test_vu8 : resultOf (exec (.tShift 5 [0xE0, 0xF5]) (looped usbLow fTdi)) = some (.bytes [0x15]) := by decide +kernel
/-- V-U10: short reads. -/
theorem test_vu10 : resultOf (exec (.tShift 16 [0x00, 0x00, 0xA5, 0x3C]) (looped (usbLow.setEnv { usbLow.env with delivery := [.bytes 0, .bytes 1, .bytes 0, .bytes 1] }) fTdi)) = some (.bytes [0xA5, 0x3C]) := by decide +kernel
/-- V-U11, against V-M8. -/
theorem test_vu11 : resultOf (exec (.tShift 10 [0x00, 0x00, 0xA5, 0x02]) (looped usbLow fTdi)) = some (.bytes [0xA5, 0x02]) := by decide +kernel
/-- V-U2: the 32 bytes written. -/
theorem test_vu2_batch : (match usbLoop 29 [0x5F, 0, 0, 0] [0, 0xA5, 0x3C, 0x15] 4 (looped usbLow fXor) with | .ok _ s => s.usbHost.out | .stuck _ => [] | .fault _ => [] | .refused _ => []) = [0x6B, 0x00, 0x01, 0x6B, 0x00, 0x01, 0x6B, 0x00, 0x01, 0x6B, 0x00, 0x01, 0x6B, 0x00, 0x01, 0x6B, 0x00, 0x00, 0x6B, 0x00, 0x01, 0x6B, 0x00, 0x00, 0x39, 0x01, 0x00, 0xA5, 0x3C, 0x3B, 0x04, 0x15] := by decide +kernel
/-- V-U5. -/
theorem test_vu5_falling_edge : (match usbLoop 12 [0, 0] [0xA5, 0x0A] 2 ((looped usbLow fTdi).setUsbHost { usbLow.usbHost with edge := true }) with | .ok _ s => (s.usbHost.out, s.usbHost.desc) | .stuck _ => ([], []) | .fault _ => ([], []) | .refused _ => ([], [])) = ([0x3D, 0x00, 0x00, 0xA5, 0x3F, 0x03, 0x0A], [.byteShift 0, .bitShift 8 4]) := by decide +kernel
/-- R223's example. -/
theorem test_bit_shift_response : view (fun s => s.usb.rspq) (exec (.uBitShift false 4 0x0A) (looped usbLow fTdi)) = some [0xA0] := by decide +kernel
/-- V-U10: an adapter that delivers nothing. -/
theorem test_stuck_read : view (fun s => s.host.phase) (exec (.tShift 8 [0, 0]) ((looped usbLow fTdi).setEnv { usbLow.env with usbAlive := false })) = some .stuckRead := by decide +kernel

/-! ## Setters (vectors V-S1 to V-S5) -/

theorem test_vs1_out_of_range : view (fun s => (s.mmio.clkdiv, s.diags)) (exec (.tSetClockDivisor 300) onMmio) = some (0, [.outOfRangeParameter]) := by decide
theorem test_vs1_in_range : view (fun s => (s.mmio.clkdiv, s.diags)) (exec (.tSetClockDivisor 255) onMmio) = some (255, []) := by decide
theorem test_vs2_delay : view (fun s => (s.mmio.delay, s.diags)) (exec (.tSetTimingParam 15) onMmio) = some (15, []) := by decide
theorem test_vs3_clamped : view (fun s => (s.usb.div, s.usb.rspq)) (exec (.tSetClockDivisor 70000) onUsb) = some (65535, []) := by decide +kernel
theorem test_vs3_negative : view (fun s => s.usb.div) (exec (.tSetClockDivisor (-3)) onUsb) = some 0 := by decide +kernel
theorem test_vs4_edge : view (fun s => s.usbHost.edge) (exec (.tSetTimingParam 7) onUsb) = some true := by decide
theorem test_vs5_frequency : [0, 4, 5, 6, 10, 255].map (tckHz 100000000) = [50000000, 10000000, 8333333, 7142857, 4545454, 195312] := by decide

/-! ## Probes (vectors V-P1 to V-P7) and construction -/

theorem test_vp1_vector : (packBits (scanVector.map (·.1)), packBits (scanVector.map (·.2))) = ([0x5F, 0, 0, 0, 0, 1], [0, 0, 0, 0, 0, 0]) := by decide +kernel
theorem test_vp3_vector : (packBits ((idcodeVector 6 0x09).map (·.1)), packBits ((idcodeVector 6 0x09).map (·.2))) = ([0xDF, 0x80, 0x03, 0, 0, 0, 0x08], [0, 0x24, 0, 0, 0, 0, 0]) := by decide +kernel
theorem test_vp4_vector : (packBits ((bypassIrVector 6).map (·.1)), packBits ((bypassIrVector 6).map (·.2))) = ([0xDF, 0x80, 0x03], [0, 0xFC, 0]) := by decide +kernel
theorem test_vp5_data_vector : (packBits ((bypassDrVector [1, 0x80000000]).map (·.1)), packBits ((bypassDrVector [1, 0x80000000]).map (·.2))) = ([0, 0, 0, 0, 0, 0, 0, 0, 1], [1, 0, 0, 0, 0, 0, 0, 0x80, 0]) := by decide +kernel
/-- P1: from an unspecified TAP. -/
theorem test_vp1_scan : wordOfBits ((bitsOf (clockAll (0, 0) scanVector onMmio)).drop 9) = 0x0362D093 := by decide +kernel
/-- V-P7. -/
theorem test_vp7_after_failure : refusalOf (exec .pProbeIdcode onMmio) = some .noIdentity := by decide
/-- R130's example. -/
theorem test_open_missing_device : faultOf (exec (.tOpen (.mmio 7)) State.reset) = some .transportOpenFailure := by decide
/-- R66, R130. -/
theorem test_open_bad_table : faultOf (exec (.tOpen (.mmio 0)) { State.reset with cfg := { Config.default with regTdo := 0x0E } }) = some .transportOpenFailure := by decide
/-- U37: a read of LENGTH, at offset 0, is issued and leaves the registers alone. -/
theorem test_read_back : view (fun s => (s.mmio, s.calls, s.draws)) (step (onMmio.setCalls [0x08, 0, 0, 0, 0, 1, 0x0B])) = some (onMmio.mmio, [0x0B], 1) := by decide
/-- R66, R317 (f): an access at an offset that is no multiple of 4. -/
theorem test_misaligned_access : refusalOf (step (onMmio.setCalls [0x08, 2, 0, 0, 0, 1])) = some .badAccess := by decide
/-- U37: a write of TDO. -/
theorem test_write_tdo : refusalOf (step (onMmio.setCalls [0x08, 0x0C, 0, 0, 0, 0])) = some .undescribedWrite := by decide
/-- R26: a raw write out of range. -/
theorem test_raw_divisor_out_of_range : view (fun s => (s.mmio.clkdiv, s.diags)) (exec (.mWrClkdiv 256) onMmio) = some (0, [.outOfRangeParameter]) := by decide
/-- R27: the same for the delay. -/
theorem test_raw_delay_out_of_range : view (fun s => (s.mmio.delay, s.diags)) (exec (.mWrDelay 16) onMmio) = some (0, [.outOfRangeParameter]) := by decide
/-- R139: a request above the caller's limit never reaches T.SHIFT. -/
theorem test_caller_limit : view (fun s => (s.calls, s.ret)) (step { looped onMmio fTdi with
    cfg := { Config.default with callerMaxBits := some 4 }, calls := [0x02, 5, 0, 0, 0, 0, 0, 0, 0, 0x1F, 0x15, 0x0B] }) = some ([0x0B], .none) := by decide +kernel
/-- R280: the variant follows the backend. -/
theorem test_calibrate_backend : (match calibrateMmio { hysteresis := 1, startAtHalf := false, byIdcode := true, withEyeWidth := false, hardenPasses := none, quickStop := none } onUsb with
    | .ok _ _ => none | .stuck _ => none | .fault _ => none | .refused r => some r) = some .engineAbsent := by decide
theorem test_open_twice : refusalOf (exec (.tOpen (.mmio 0)) onMmio) = some .alreadyOpen := by decide
/-- V-C1. -/
theorem test_calibrated_window : (let w := (List.range 16).foldl (fun w d => w.push 3 d (decide (4 ≤ d ∧ d ≤ 9))) Window.empty
    (w.recording, w.start, w.count)) = (true, 4, 6) := by decide
/-- R292. -/
theorem test_patterns : (walkingZero.head?, growingZero.getLast?, walkingOne.getLast?) = (some 0xFFFFFFFE, some 0, some 0x80000000) := by decide
/-- R296's example. -/
theorem test_usb_range : [1, 2, 29, 30].map (usbWithin Config.default 1000000 10000000) = [false, true, true, false] := by decide

/-! ## Witnesses: the hypotheses of each statement are met -/

/-- No transfer fails where none is listed. -/
theorem clean : Transfer.error ∉ ([] : List Transfer) ∧ false ∉ ([] : List Bool) := by decide
/-- A working MMIO instance. -/
theorem onMmio_ready : onMmio.mmioReady := ⟨⟨0, rfl⟩, rfl, rfl, .inl rfl⟩
/-- A working USB instance. -/
theorem onUsb_ready : onUsb.usbReady := ⟨⟨_, rfl⟩, rfl, rfl, by decide, rfl, clean⟩
/-- The default parameters make sense. -/
theorem onMmio_cfg : Config.default.wellFormed = true := by decide
/-- Both are ready for shifts, at a valid point, with any target. -/
theorem onMmio_shiftReady (t : Target) : (onMmio.setTarget t).shiftReady := ⟨onMmio_cfg, .inl onMmio_ready⟩
theorem onUsb_shiftReady (t : Target) : (onUsb.setTarget t).shiftReady := ⟨onMmio_cfg, .inr onUsb_ready⟩
theorem unknown_navigable : Tap.atReset.navigable := fun h => absurd h (by decide)
theorem known_navigable : (tapIn .shiftDr).navigable := fun _ _ => by decide

theorem witness_HandleOwnedForLife : State.reset.handle = none ∧ State.reset.canOpen (.mmio 0) = true ∧ (∀ p, Instr.pScanChain ≠ .tOpen p)
    ∧ onMmio.handle = some (.mmio 0) ∧ view (fun s => s.handle) (exec .mWrStart onMmio) = some (some (.mmio 0)) := ⟨rfl, by decide, fun _ => by simp, rfl, by decide⟩
theorem witness_OpenSetsDecidedValues : State.reset.handle = none ∧ State.reset.canOpen (.mmio 0) = true ∧ State.reset.cfg.wellFormed = true
    ∧ State.reset.canOpen (.usb { vid := 0, pid := 0, serial := [], interface := 0 }) = true := by decide
theorem witness_OpenFailureOnlyAtConstruction : faultOf (exec (.tOpen (.mmio 1)) State.reset) = some .transportOpenFailure
    ∧ faultOf (exec (.tOpen (.usb { vid := 1, pid := 0, serial := [], interface := 0 })) State.reset) = some .transportOpenFailure := by decide
theorem witness_MmioSettersStoreInRange : onMmio.handle = some (.mmio 0) ∧ onMmio.mmio.busy = false ∧ (0 : Int) ≤ 255
    ∧ (255 : Int) ≤ onMmio.cfg.divMax ∧ (0 : Int) ≤ 15 ∧ (15 : Int) ≤ onMmio.cfg.delayMax ∧ (0 : Int) ≤ 0 := by decide
theorem witness_OutOfRangeParameterIsSoft : onMmio.handle = some (.mmio 0) ∧ (-1 : Int) < 0 ∧ (onMmio.cfg.divMax : Int) < 256 ∧ (onMmio.cfg.delayMax : Int) < 16
    ∧ view (fun s => s.diags) (exec (.tSetClockDivisor 65536) onUsb) = some []
    ∧ view (fun s => s.diags) (exec (.tSetTimingParam (-1)) onUsb) = some [] := by decide +kernel
theorem witness_UsbSettersClamp : onUsb.handle = some (.usb { vid := 0, pid := 0, serial := [], interface := 0 })
    ∧ onUsb.cfg.wellFormed = true ∧ onUsb.usb.cmdq = [] ∧ onUsb.env.writes.head? ≠ some false
    ∧ view (fun s => s.usb.div) (exec (.tSetClockDivisor 65536) onUsb) = some 65535
    ∧ view (fun s => s.usbHost.edge) (exec (.tSetTimingParam 0) onUsb) = some false := by decide +kernel
theorem witness_TckInDataColumn : ∀ x ∈ [TapState.testLogicReset, .runTestIdle, .selectDrScan, .captureDr, .shiftDr, .exit1Dr, .pauseDr, .exit2Dr,
      .updateDr], onMmio.handle.isSome = true ∧ onMmio.mmio.busy = false ∧ (withTap onMmio (tapIn x)).target = .chain [tapIn x] ∧ (tapIn x).known = true
      ∧ (tapIn x).state = x ∧ (tapIn x).par.hasIdcode = true ∧ (tapIn x).instr = (tapIn x).par.idcodeCode
      ∧ (tapIn x).selected ≠ .undescribed := by decide
theorem witness_TckInDataColumn_bypass : (let t : Tap := { tapIn .captureDr with instr := List.replicate 6 true }
    (withTap onMmio t).handle.isSome = true ∧ (withTap onMmio t).mmio.busy = false ∧ (withTap onMmio t).target = .chain [t] ∧ t.known = true ∧ t.state = .captureDr
      ∧ t.instr ≠ t.par.idcodeCode ∧ t.instr = t.par.bypassCode) := by decide
theorem witness_TckInInstructionColumn : ∀ x ∈ [TapState.selectIrScan, .captureIr, .shiftIr, .exit1Ir, .pauseIr, .exit2Ir, .updateIr],
    (withTap onMmio (tapIn x)).handle.isSome = true ∧ (withTap onMmio (tapIn x)).mmio.busy = false ∧ (withTap onMmio (tapIn x)).target = .chain [tapIn x]
      ∧ (tapIn x).known = true ∧ (tapIn x).state = x := by decide
theorem witness_ReservedInstructionRefused : ∀ x ∈ [TapState.captureDr, .shiftDr, .exit1Ir],
    ((let t : Tap := { tapIn x with instr := bitsOfNat 6 0x05 }
      (withTap onMmio t).handle.isSome = true ∧ (withTap onMmio t).mmio.busy = false ∧ (withTap onMmio t).target = .chain [t] ∧ t.known = true
        ∧ t.instr ≠ t.par.idcodeCode ∧ t.instr ≠ t.par.bypassCode ∧ t.state = x)
    ∧ (Instr.jTckExit1Ir true false).tck? = some (.exit1Ir, true, false)) := by decide
theorem witness_InstructionLatch : onMmio.handle.isSome = true ∧ onMmio.mmio.busy = false ∧ onMmio.target = .chain [Tap.atReset]
    ∧ view (fun s => s.target) (exec .jBypass (withTap onMmio (tapIn .runTestIdle)))
        = some (.chain [{ tapIn .runTestIdle with instr := List.replicate 6 true }]) := by decide
theorem witness_IdcodeShiftsOutBitZeroFirst : (let s := withTap onMmio (tapIn .captureDr)
    s.env.isValid (0, 0) = true ∧ s.target = .chain [tapIn .captureDr] ∧ (tapIn .captureDr).known = true
      ∧ (tapIn .captureDr).state = .captureDr ∧ (tapIn .captureDr).par.hasIdcode = true
      ∧ (tapIn .captureDr).instr = (tapIn .captureDr).par.idcodeCode ∧ (List.replicate 32 true).length = 32) := by decide
theorem witness_BypassDelaysOneBit : (let t : Tap := { tapIn .captureDr with instr := List.replicate 6 true }
    onMmio.env.isValid (0, 0) = true ∧ (withTap onMmio t).target = .chain [t] ∧ t.known = true ∧ t.state = .captureDr
      ∧ t.instr = t.par.bypassCode ∧ t.instr ≠ t.par.idcodeCode) := by decide
theorem witness_ResetWalkFromAnyTarget : (let ts := [Tap.atReset, tapIn .shiftDr]
    (onMmio.setTarget (.chain ts)).shiftReady ∧ (onUsb.setTarget (.chain ts)).shiftReady
      ∧ (onMmio.setTarget (.chain ts)).env.isValid (onMmio.setTarget (.chain ts)).shiftPoint = true
      ∧ (onUsb.setTarget (.chain ts)).env.isValid (onUsb.setTarget (.chain ts)).shiftPoint = true
      ∧ ∀ t ∈ ts, t.navigable) := ⟨onMmio_shiftReady _, onUsb_shiftReady _, by decide, by decide, by simp [unknown_navigable, known_navigable]⟩
theorem witness_UnspecifiedTapCycle : ∀ n ∈ [0, 3, 4], (let t : Tap := { Tap.atReset with ones := n }
    (withTap onMmio t).handle.isSome = true ∧ (withTap onMmio t).mmio.busy = false ∧ (withTap onMmio t).target = .chain [t] ∧ t.known = false
      ∧ (Instr.jTckPauseDr true false).tck? = some (.pauseDr, true, false) ∧ (4 ≤ t.ones ∨ t.ones < 4)) := by decide
theorem witness_ChainIsOneShiftRegister : ∀ t ∈ [tapIn .shiftDr, tapIn .shiftDr], t.known = true ∧ t.state = .shiftDr ∧ t.selected ≠ .undescribed ∧ t.drSr ≠ [] := by decide
theorem witness_ChainIsOneShiftRegister_ir : ∀ t ∈ [tapIn .shiftIr, tapIn .shiftIr], t.known = true ∧ t.state = .shiftIr ∧ t.irSr ≠ [] := by decide
theorem witness_RegisterWritesStoreOnly : onMmio.handle = some (.mmio 0) ∧ onMmio.mmio.busy = false ∧ (0xFF : Word).toNat ≤ onMmio.cfg.divMax
    ∧ ¬ (0x100 : Word).toNat ≤ onMmio.cfg.divMax ∧ (0xF : Word).toNat ≤ onMmio.cfg.delayMax ∧ ¬ (0x10 : Word).toNat ≤ onMmio.cfg.delayMax := by decide
/-- An MMIO instance in the middle of a chunk of one bit. -/
def busyMmio : State := onMmio.setMmio { onMmio.mmio with busy := true }
theorem witness_WritesStrobeTdoReadAndTapRefusedWhileBusy : busyMmio.handle = some (.mmio 0) ∧ busyMmio.mmio.busy = true
    ∧ (Instr.jTckShiftDr false true).tck?.isSome = true := by decide
theorem witness_StartStrobeSetsBusy : (let s (w : Word) := onMmio.setMmio { onMmio.mmio with length := w }
    (s 1).handle = some (.mmio 0) ∧ (s 1).mmio.busy = false ∧ 1 ≤ (s 1).mmio.length.toNat ∧ (s 1).mmio.length.toNat ≤ 32
      ∧ 1 ≤ (s 32).mmio.length.toNat ∧ (s 32).mmio.length.toNat ≤ 32
      ∧ (s 0).mmio.length.toNat = 0 ∧ 32 < (s 33).mmio.length.toNat ∧ (s 33).mmio.busy = false) := by decide
theorem witness_RegisterReadsHaveNoSideEffect : (let s := onMmio.setCalls (tagMmio :: accessBytes 0x18 1 [] ++ [0x0B])
    s.handle = some (.mmio 0) ∧ s.cfg.statusBusy ≠ 0 ∧ s.mmio.busy = false ∧ s.cfg.wellFormed = true ∧ 0x18 ∈ s.cfg.offsets
      ∧ 0x18 ≠ s.cfg.regStatus ∧ 0x18 ≠ s.cfg.regTdo ∧ s.host.phase = .ready ∧ deviceTurn s = .ok () s
      ∧ s.calls = tagMmio :: accessBytes 0x18 1 [] ++ [0x0B]) := by decide
theorem witness_EngineRunLeavesCaptureAtTheTop : (let s := looped (onMmio.setMmio { onMmio.mmio with busy := true, length := 5, tms := 0x1F, tdi := 0x15 }) fTdi
    s.mmio.busy = true ∧ s.mmio.count = 0 ∧ 1 ≤ s.mmio.length.toNat ∧ s.mmio.length.toNat ≤ 32
    ∧ clockAll s.mmioPoint ((List.range s.mmio.length.toNat).map fun k => (s.mmio.tms.getLsbD k, s.mmio.tdi.getLsbD k)) s
        = .ok [true, false, true, false, true] (s.setDraws 5)) := by decide +kernel
theorem witness_ByteShiftCommand : (looped onUsb fTdi).handle = some (.usb { vid := 0, pid := 0, serial := [], interface := 0 })
    ∧ clockAll ((looped onUsb fTdi).usbPoint false) ([0xA5#8].flatMap fun x => (List.range 8).map fun b => ((looped onUsb fTdi).usb.tms, x.getLsbD b))
        (looped onUsb fTdi) = .ok (bitsOfNat 8 0xA5) ((looped onUsb fTdi).setDraws 8) := by decide +kernel
theorem witness_BitShiftCommand : (looped onUsb fTdi).handle = some (.usb { vid := 0, pid := 0, serial := [], interface := 0 })
    ∧ (1 : Nat) ≤ 8 ∧ clockAll ((looped onUsb fTdi).usbPoint true) ((List.range 8).map fun b => ((looped onUsb fTdi).usb.tms, (0x0A#8).getLsbD b))
    (looped onUsb fTdi) = .ok (bitsOfNat 8 0x0A) ((looped onUsb fTdi).setDraws 8) := by decide +kernel
theorem witness_TmsShiftCommand : (looped onUsb fTdi).handle = some (.usb { vid := 0, pid := 0, serial := [], interface := 0 })
    ∧ (1 : Nat) ≤ 7 ∧ clockAll ((looped onUsb fTdi).usbPoint true) ((List.range 7).map fun j => ((0x81#8).getLsbD j, (0x81#8).getLsbD 7))
    (looped onUsb fTdi) = .ok (List.replicate 7 true) ((looped onUsb fTdi).setDraws 7) := by decide +kernel
theorem witness_SetDivisorCommandClocksNothing : onUsb.handle = some (.usb { vid := 0, pid := 0, serial := [], interface := 0 }) := by decide
/-- The response stream a part of an operation leaves. -/
def responses (r : Res Unit) : Option (List Byte) :=
  match r with
  | .ok _ s => some s.usb.rspq
  | .stuck _ => none
  | .fault _ => none
  | .refused _ => none
/-- R240's example: a batch of two bytes in one byte-shift and one bit-shift, waiting to be flushed. -/
def batched : State := (looped onUsb fTdi).setUsbHost { usbLow.usbHost with
  out := [0x39, 0x00, 0x00, 0xF0, 0x3B, 0x03, 0x0A], desc := [.byteShift 0, .bitShift 8 4] }
theorem witness_FlushReplaysDescriptors : (let s := batched.setEnv { batched.env with delivery := [.bytes 0, .bytes 1], writes := [true] }
    onUsb.handle.isSome = true ∧ onUsb.usbHost.desc = []
    ∧ s.handle = some (.usb { vid := 0, pid := 0, serial := [], interface := 0 }) ∧ s.usbHost.desc ≠ []
    ∧ (Transfer.error ∉ s.env.delivery ∧ false ∉ s.env.writes) ∧ s.env.usbAlive = true
    ∧ responses (usbWrite s.usbHost.out (s.setUsbHost { s.usbHost with run := none })) = some [0xF0, 0xAF]
    ∧ s.usbHost.desc.length ≤ [0xF0#8, 0xAF#8].length) := by decide +kernel
theorem witness_MmioShiftIsTheSpecifiedShift : (looped onMmio fTdi).cfg.wellFormed = true ∧ (looped onMmio fTdi).mmioReady
    ∧ 0 < 5 ∧ [0x1F#8, 0x15].length = 2 * bytesFor 5
    ∧ clockAll (looped onMmio fTdi).mmioPoint (vectorOf 5 ([0x1F, 0x15].take (bytesFor 5)) ([0x1F, 0x15].drop (bytesFor 5))) (looped onMmio fTdi)
        = .ok [true, false, true, false, true] ((looped onMmio fTdi).setDraws 5) := ⟨by decide, ⟨⟨0, rfl⟩, rfl, rfl, .inl rfl⟩, by decide, by decide, by decide +kernel⟩
theorem witness_UsbShiftIsTheSpecifiedShift : (looped onUsb fTdi).cfg.wellFormed = true ∧ (looped onUsb fTdi).usbReady
    ∧ 0 < 5 ∧ [0x1F#8, 0x15].length = 2 * bytesFor 5
    ∧ clockAll ((looped onUsb fTdi).usbPoint onUsb.usbHost.edge) (vectorOf 5 ([0x1F, 0x15].take (bytesFor 5)) ([0x1F, 0x15].drop (bytesFor 5))) (looped onUsb fTdi)
        = .ok [true, false, true, false, true] ((looped onUsb fTdi).setDraws 5) := ⟨by decide, ⟨⟨_, rfl⟩, rfl, rfl, by decide, rfl, clean⟩, by decide, by decide, by decide +kernel⟩
theorem witness_BackendsAgree : (looped onMmio fTdi).cfg.wellFormed = true ∧ (looped onUsb fTdi).cfg.wellFormed = true
    ∧ (looped onMmio fTdi).mmioReady ∧ (looped onUsb fTdi).usbReady
    ∧ (looped onMmio fTdi).env.isValid (looped onMmio fTdi).shiftPoint = true
    ∧ (looped onUsb fTdi).env.isValid (looped onUsb fTdi).shiftPoint = true
    ∧ (looped onMmio fTdi).target = (looped onUsb fTdi).target ∧ (looped onMmio fTdi).draws = (looped onUsb fTdi).draws
    ∧ 0 < 5 ∧ [0x1F#8, 0x15].length = 2 * bytesFor 5
    ∧ clockAll (looped onMmio fTdi).shiftPoint (vectorOf 5 ([0x1F, 0x15].take (bytesFor 5)) ([0x1F, 0x15].drop (bytesFor 5))) (looped onMmio fTdi)
        = .ok [true, false, true, false, true] ((looped onMmio fTdi).setDraws 5) := ⟨by decide, by decide, ⟨⟨0, rfl⟩, rfl, rfl, .inl rfl⟩, ⟨⟨_, rfl⟩, rfl, rfl, by decide, rfl, clean⟩, by decide, by decide, rfl, rfl, by decide, by decide, by decide +kernel⟩
/-- An MMIO instance none of whose operating points is valid. -/
def noPoint : State := onMmio.setEnv { onMmio.env with allValid := false }
theorem witness_InvalidPointLosesCaptureAndTarget : noPoint.shiftReady ∧ noPoint.env.isValid noPoint.shiftPoint = false ∧ 0 < 5
    ∧ [0x1F#8, 0x15].length = 2 * bytesFor 5 := ⟨⟨by decide, .inl ⟨⟨0, rfl⟩, rfl, rfl, .inl rfl⟩⟩, by decide, by decide, by decide⟩
theorem witness_ShiftRequestChecks : onMmio.handle.isSome = true ∧ refusalOf (exec (.tShift (-1) []) onMmio) = some .badShiftRequest
    ∧ refusalOf (exec (.tShift 9 [0, 0, 0]) onUsb) = some .badShiftRequest := by decide
/-- An MMIO instance whose sequencer never moves. -/
def deadMmio : State := onMmio.setEnv { onMmio.env with engineAlive := false }
theorem witness_UnresponsiveSequencerHangsTheHost : deadMmio.handle = some (.mmio 0) ∧ deadMmio.mmio.busy = false ∧ deadMmio.env.engineAlive = false ∧ deadMmio.env.pace = []
    ∧ deadMmio.cfg.pollLimit = 0 ∧ 0 < 5 ∧ [0#8, 0].length = 2 * bytesFor 5 := by decide
/-- The facts of a USB instance with the loopback double that a shift of five bits on it needs. -/
def clocksFive (s : State) : Prop :=
  s.handle = some (.usb { vid := 0, pid := 0, serial := [], interface := 0 }) ∧ s.cfg.wellFormed = true ∧ s.usb.cmdq = []
    ∧ s.levelsAgree = true ∧ 0 < 5 ∧ [0x1F#8, 0x15].length = 2 * bytesFor 5
    ∧ clockAll (s.usbPoint s.usbHost.edge) (vectorOf 5 ([0x1F, 0x15].take (bytesFor 5)) ([0x1F, 0x15].drop (bytesFor 5))) s
        = .ok [true, false, true, false, true] (s.setDraws 5)
theorem witness_UndeliveredBytesHangTheHost : (let s := looped (onUsb.setEnv { onUsb.env with usbAlive := false }) fTdi
    clocksFive s ∧ s.env.usbAlive = false ∧ s.env.delivery = [] ∧ false ∉ s.env.writes) := by unfold clocksFive; decide +kernel
theorem witness_UndeliveredBytesHangTheHost_write : (let s := looped (onUsb.setEnv { onUsb.env with writes := [false] }) fTdi
    clocksFive s ∧ s.env.writes.head? = some false) := by unfold clocksFive; decide +kernel
theorem witness_UndeliveredBytesHangTheHost_read : (let s := looped (onUsb.setEnv { onUsb.env with delivery := [.error] }) fTdi
    clocksFive s ∧ s.env.delivery.head? = some .error ∧ s.env.writes.head? ≠ some false) := by unfold clocksFive; decide +kernel
theorem witness_PollLimitRaisesTimeout : (let s : State := { deadMmio with cfg := { Config.default with pollLimit := 1 } }
    s.handle = some (.mmio 0) ∧ s.mmio.busy = false ∧ s.env.engineAlive = false ∧ s.env.pace = [] ∧ 0 < s.cfg.pollLimit ∧ 0 < 5
    ∧ [0#8, 0].length = 2 * bytesFor 5)
    ∧ onMmio.cfg.pollLimit = 0 := by decide
/-- An MMIO instance with the loopback double, a poll bound of 2, a pace and an engine that goes on or not. -/
def bounded (pace : List Nat) (alive : Bool) : State :=
  { looped onMmio fTdi with cfg := { Config.default with pollLimit := 2 }, env := { Env.atReset with pace := pace, engineAlive := alive } }
theorem witness_PollLimitRaisesTimeout_moving : (let s := bounded [3, 2] true
    s.handle = some (.mmio 0) ∧ s.mmio.busy = false ∧ s.cfg.statusBusy ≠ 0 ∧ 0 < s.cfg.pollLimit ∧ 0 < 5
      ∧ [0x1F#8, 0x15].length = 2 * bytesFor 5
      ∧ clockAll s.mmioPoint (vectorOf 5 ([0x1F, 0x15].take (bytesFor 5)) ([0x1F, 0x15].drop (bytesFor 5))) s
        = .ok [true, false, true, false, true] (s.setDraws 5)
      ∧ s.cfg.pollLimit ≤ busyReads s.env.pace (5 + 1)
      ∧ busyReads (bounded [3, 3] true).env.pace (5 + 1) < s.cfg.pollLimit
      ∧ (bounded [3, 2] false).env.engineAlive = false ∧ (bounded [3, 2] false).env.pace.sum ≤ min 32 5) := by decide +kernel
theorem witness_LoopbackReturnsItsFunction : (looped onMmio fXor).shiftReady ∧ (looped onUsb fXor).shiftReady
    ∧ (looped onMmio fXor).env.isValid (looped onMmio fXor).shiftPoint = true
    ∧ (looped onUsb fXor).env.isValid (looped onUsb fXor).shiftPoint = true ∧ (looped onMmio fXor).target = .loopback fXor
    ∧ (looped onUsb fXor).target = .loopback fXor ∧ 0 < 9 ∧ [0x5F#8, 1, 0xA5, 0].length = 2 * bytesFor 9 := ⟨onMmio_shiftReady _, onUsb_shiftReady _, by decide, by decide, rfl, rfl, by decide, by decide⟩
/-- The instance after a detection. -/
def detected (s : State) : State := s.setIdentity (some identity)
theorem witness_ScanChainReadsTheIdentifier : onMmio.shiftReady ∧ onUsb.shiftReady ∧ onMmio.env.isValid onMmio.shiftPoint = true
    ∧ onMmio.target = .chain [Tap.atReset] ∧ Tap.atReset.navigable ∧ (tapIn .shiftDr).navigable := ⟨onMmio_shiftReady onMmio.target, onUsb_shiftReady onUsb.target, by decide, rfl, unknown_navigable, known_navigable⟩
theorem witness_ProbeIdcodeReadsTheIdentifier : (detected onMmio).shiftReady ∧ (detected onMmio).env.isValid (detected onMmio).shiftPoint = true
    ∧ (detected onMmio).target = .chain [Tap.atReset] ∧ Tap.atReset.navigable
    ∧ (detected onMmio).identity = some identity ∧ identity.irLength = Tap.atReset.par.irLength
    ∧ identity.idCommand = Tap.atReset.par.idCommand ∧ 1 ≤ Tap.atReset.par.irLength ∧ Tap.atReset.par.hasIdcode = true := ⟨⟨by decide, .inl ⟨⟨0, rfl⟩, rfl, rfl, .inl rfl⟩⟩, by decide, rfl, unknown_navigable, rfl, rfl, rfl, by decide, rfl⟩
theorem witness_ProbeBypassReturnsItsPayload : (detected onUsb).shiftReady ∧ (detected onUsb).env.isValid (detected onUsb).shiftPoint = true
    ∧ (detected onUsb).target = .chain [Tap.atReset] ∧ Tap.atReset.navigable
    ∧ (detected onUsb).identity = some identity ∧ identity.irLength = Tap.atReset.par.irLength ∧ 1 ≤ Tap.atReset.par.irLength
    ∧ Tap.atReset.par.idcodeCode ≠ Tap.atReset.par.bypassCode ∧ [0xDEADBEEF#32] ≠ [] := ⟨⟨by decide, .inr ⟨⟨_, rfl⟩, rfl, rfl, by decide, rfl, clean⟩⟩, by decide, rfl, unknown_navigable, rfl, rfl, by decide, by decide, by decide⟩
theorem witness_DetectFixesTheFirstIdentity : onMmio.shiftReady ∧ onMmio.handle = some (.mmio 0) ∧ onMmio.identity = none
    ∧ onMmio.env.isValid (slowestDivisor onMmio.cfg (.mmio 0), 0) = true ∧ onMmio.target = .chain [Tap.atReset]
    ∧ Tap.atReset.navigable ∧ Tap.atReset.par.hasIdcode = true
    ∧ onMmio.cfg.catalog.find? (fun r => decide (r.idcode = Tap.atReset.par.idcodeValue)) = some identity := ⟨onMmio_shiftReady onMmio.target, rfl, rfl, by decide, rfl, unknown_navigable, rfl, by decide⟩
/-- An MMIO instance with an empty catalog. -/
def noCatalog : State := { onMmio with cfg := { Config.default with catalog := [] } }
theorem witness_DetectFailsSoftly : noCatalog.shiftReady ∧ noCatalog.handle = some (.mmio 0) ∧ noCatalog.identity = none
    ∧ (∀ tp ≤ tpMax noCatalog.cfg (.mmio 0), noCatalog.env.isValid (slowestDivisor noCatalog.cfg (.mmio 0), tp) = true)
    ∧ noCatalog.target = .chain [Tap.atReset] ∧ Tap.atReset.navigable
    ∧ (∀ r ∈ noCatalog.cfg.catalog, r.idcode ≠ 0x0362D093) := ⟨⟨by decide, .inl ⟨⟨0, rfl⟩, rfl, rfl, .inl rfl⟩⟩, rfl, rfl, by decide, rfl, unknown_navigable, by decide⟩
theorem witness_DetectAgainChangesNothing : (detected onMmio).handle.isSome = true ∧ (detected onMmio).identity.isSome = true := by decide
theorem witness_ProbesNeedAnIdentity : onMmio.handle.isSome = true ∧ onMmio.isDetected = false
    ∧ (detected onMmio).handle.isSome = true ∧ (detected onMmio).isDetected = true := by decide
theorem witness_CallDecodesToItsOperation : Config.default.wellFormed = true ∧ (Instr.tShift 9 [0x5F, 0x01, 0xA5, 0x3C]).wellFormed = true
    ∧ (Instr.uByteShift true [0xA5]).wellFormed = true := by decide
theorem witness_CommandStreamDecodesToItsCommand : ∀ i ∈ [Instr.uByteShift true [0xA5], .uBitShift true 8 0x0A, .uTmsShift true 7 0x0A, .uSetDivisor 0xFFFF],
    Config.default.wellFormed = true ∧ i.wellFormed = true ∧ encodeCommand Config.default i ≠ [] := by decide
theorem witness_DecodeAnswersOnlyWellFormed : decode Config.default [0x0B, 0x0C] = .ok .pProbeIdcode [0x0C] := by decide
theorem witness_StepRunsTheDecodedOperation : (let s := (looped onMmio fTdi).setCalls [0x0C, 0x0B]
    s.host.phase = .ready ∧ s.mmio.busy = false ∧ s.usb.cmdq = [] ∧ deviceTurn s = .ok () s
      ∧ decode s.cfg s.calls = .ok .pScanChain [0x0B] ∧ Config.accepts s.cfg .pScanChain = true) := by decide
theorem witness_StepWaitsWhenStuckOrIdle : onMmio.host.phase = .ready ∧ onMmio.mmio.busy = false ∧ onMmio.usb.cmdq = [] ∧ onMmio.calls = []
    ∧ decode onMmio.cfg [0x0E, 0x01] = .incomplete ∧ ({ HostSeq.idle with phase := .stuckRead } : HostSeq).phase = .stuckRead := by decide
theorem witness_TapWidthsKept : onMmio.tapsOk = true ∧ view (fun s => s.calls) (step (onMmio.setCalls [0x07])) = some [] := by decide
theorem witness_ResetInstructionKept : (withTap onMmio (tapIn .testLogicReset)).resetInstrOk = true
    ∧ view (fun s => s.resetInstrOk) (step ((withTap onMmio (tapIn .testLogicReset)).setCalls [0x07])) = some true := by decide
theorem witness_SequencerCounterKept : busyMmio.sequencerOk = true ∧ view (fun s => s.mmio.count) (step (looped busyMmio fTdi)) = some 1 := by decide +kernel
theorem witness_TmsLevelKept : usbLow.cfg.wellFormed = true ∧ usbLow.levelOk = true
    ∧ view (fun s => s.usbHost.tmsLevel) (step ((looped usbLow fTdi).setCalls [0x09, 0x6B, 0x00, 0x81])) = some (some true) := by decide +kernel
theorem witness_IdentityAndHandleKept : (detected onMmio).identityOk = true ∧ view (fun s => s.identity) (step ((detected onMmio).setCalls [0x0D])) = some (some identity) := by decide
theorem witness_LegalDivisorAndDelayKept : onMmio.legalPoint = true
    ∧ view (fun s => s.legalPoint) (step (onMmio.setCalls [0x08, 0x14, 0, 0, 0, 0, 0, 1, 0, 0])) = some true := by decide
theorem witness_WindowStartIsBackdated : (4 : Nat) ≤ 9 ∧ (9 : Nat) ≤ 15 ∧ max 6 1 ≤ 9 - 4 + 1 ∧ max 0 1 ≤ 3 - 3 + 1 := by decide
/-- A point of a table. -/
def point (id hz : Nat) : CalibrationPoint :=
  { id := id, clockDivisor := 0, clockDelayOrEdge := .delay 0, clockFrequencyHz := hz, validPointCount := 0,
    eyeWidthPercent := none }
/-- V-C8. -/
theorem witness_MaxFrequencyKeepsTheFirst : getItemByMaxFrequency [point 0 3846153, point 1 4545454, point 2 4545454] = some (point 1 4545454) := by decide
/-- A calibrator run by the idcode probe, without hardening. -/
def plainRun : MmioCalibration :=
  { hysteresis := 1, startAtHalf := false, byIdcode := true, withEyeWidth := false, hardenPasses := none, quickStop := none }
/-- An instance whose TDO is always 1, its reference idcode all ones. -/
def onesMmio : State :=
  { looped onMmio { f00 := true, f01 := true, f10 := true, f11 := true } with
    cfg := { Config.default with divMax := 0, delayMax := 0 }
    identity := some { identity with idcode := 0xFFFFFFFF } }
/-- The table a calibrator answered. -/
def tableOf (r : Res (List CalibrationPoint)) : Option (List CalibrationPoint) :=
  match r with
  | .ok items _ => some items
  | .stuck _ => none
  | .fault _ => none
  | .refused _ => none
/-- A run of the USB calibrator over the slowest divisors. -/
def slowRun : UsbCalibration := { minFreq := 0, maxFreq := 10000000, loop := 0, bothEdges := false }
theorem witness_CalibratedPointsPassTheGate : onesMmio.handle = some (.mmio 0)
    ∧ tableOf (calibrate plainRun slowRun onesMmio) = some [{ point 0 50000000 with validPointCount := 1 }] := by decide +kernel
theorem witness_CalibratedPointsPassTheGate_usb : (let s : State := { onUsb with cfg := { Config.default with usbDivMax := 3 } }
    s.handle = some (.usb { vid := 0, pid := 0, serial := [], interface := 0 })
      ∧ (tableOf (calibrate plainRun slowRun s)).map (fun ps => ps.map fun p => (p.id, p.clockDivisor, p.clockFrequencyHz))
          = some [(0, 3, 7500000), (1, 2, 10000000)]) := by decide +kernel

end Sys2Proof.Machine.Tests
end

section
/-! ## What a part of an operation leaves behind

One rule for sequences (`Res.Leaves.bind`), used by every proof below. -/

namespace Sys2Proof.Machine

section
variable {α β : Type} {F : Prop} {P : α → State → Prop} {Q R : State → Prop}

/-- Where a part of an operation goes on, `P` holds of its value and state; where it leaves the host stuck, `Q` holds of
that state; it ends in a fatal error or a refusal only if `F`. -/
def Res.Leaves (F : Prop) (P : α → State → Prop) (Q : State → Prop) : Res α → Prop
  | .ok a t => P a t
  | .stuck t => Q t
  | .fault _ => F
  | .refused _ => F

/-- `Res.Leaves` of a part that may stop. -/
abbrev Res.Post (P : α → State → Prop) (Q : State → Prop) : Res α → Prop := Res.Leaves True P Q

theorem Res.Leaves.mono {P' : α → State → Prop} {F' : Prop} {x : Res α} (h : x.Leaves F P Q)
    (hP : ∀ a t, P a t → P' a t) (hQ : ∀ t, Q t → R t) (hF : F → F' := by exact id) : x.Leaves F' P' R := by
  cases x with
  | ok a t => exact hP a t h
  | stuck t => exact hQ t h
  | fault f => exact hF h
  | refused r => exact hF h

theorem Res.Leaves.and {P' : α → State → Prop} {Q' : State → Prop} {x : Res α} (h : x.Leaves F P Q) (k : x.Post P' Q') :
    x.Leaves F (fun a t => P a t ∧ P' a t) Q := by
  cases x with
  | ok a t => exact ⟨h, k⟩
  | stuck t => exact h
  | fault f => exact h
  | refused r => exact h

/-- In a sequence the second part starts where the first went on. -/
theorem Res.Leaves.bind {P' : β → State → Prop} {x : Res α} {f : α → State → Res β} (h : x.Leaves F P Q)
    (k : ∀ a t, P a t → (f a t).Leaves F P' Q) : (x.bind f).Leaves F P' Q := by
  cases x with
  | ok a t => exact k a t h
  | stuck t => exact h
  | fault e => exact h
  | refused r => exact h

/-- The same where the first part never leaves the host stuck. -/
theorem Res.Leaves.seq {P' : β → State → Prop} {x : Res α} {f : α → State → Res β} (h : x.Leaves F P fun _ => False)
    (k : ∀ a t, P a t → (f a t).Leaves F P' Q) : (x.bind f).Leaves F P' Q :=
  (h.mono (fun _ _ h => h) (R := Q) fun _ => False.elim).bind k

/-- The same where the first part only looks at the state. -/
theorem Res.Leaves.look {P' : β → State → Prop} {C : α → Prop} {x : Res α} {s : State} {f : α → State → Res β}
    (h : x.Leaves F (fun a t => C a ∧ t = s) fun _ => False) (k : ∀ a, C a → (f a s).Leaves F P' Q) :
    (x.bind f).Leaves F P' Q :=
  h.seq fun a _ ⟨hc, e⟩ => e ▸ k a hc

/-- The next state of an operation is one that its parts left. -/
theorem Res.Leaves.out {x : Res α} {g : α → State → State} {t : State} (h : x.Leaves F P R) (hP : ∀ a u, P a u → R (g a u))
    (e : x.out g = .next t) : R t := by
  obtain ⟨a, u, rfl, rfl⟩ | rfl := Res.out_eq_next.1 e
  · exact hP a u h
  · exact h

/-- What `Kept` names is the same in every state a part leaves. -/
theorem Res.keeps.post {x : Res α} {s : State} (h : x.keeps s) : x.Post (fun _ => Kept s) (Kept s) := by
  cases x <;> exact h

end

end Sys2Proof.Machine
end

section
/-! ## The moves of the machine

Every change of state is a sequence of a few kinds of small moves. Each invariant is then a case split over the kinds. -/

namespace Sys2Proof.Machine

/-- The ways in which a TAP's registers change. -/
inductive Tap.Move : Tap → Tap → Prop where
  | cycle {t t' : Tap} (tms tdi : Bool) (free : TapRegs) (h : t.cycle tms tdi free = some t') : Tap.Move t t'
  | lose (t : Tap) (free : TapRegs) : Tap.Move t (t.lose free)
  | latchIdcode (t : Tap) : Tap.Move t (t.latch t.par.idcodeCode)
  | latchBypass (t : Tap) : Tap.Move t (t.latch t.par.bypassCode)

/-- A chain changes TAP by TAP; the loopback double has no state (R140). -/
inductive Target.Move : Target → Target → Prop where
  | chain {ts ts' : List Tap} (h : List.Forall₂ Tap.Move ts ts') : Target.Move (.chain ts) (.chain ts')
  | loopback (f : LoopFn) : Target.Move (.loopback f) (.loopback f)

/-- The kinds of moves. A move at `false` leaves both sides of the USB backend alone; at `true` it need not. -/
inductive Move : Bool → State → State → Prop where
  | env {b : Bool} (s : State) (pace : List Nat) (delivery : List Transfer) (writes : List Bool) :
      Move b s (s.setEnv { s.env with pace := pace, delivery := delivery, writes := writes })
  | target {b : Bool} (s : State) (v : Target) (h : s.target.Move v) : Move b s (s.setTarget v)
  | sample {b : Bool} (s : State) (w : Word) (hb : s.mmio.busy = true) (hc : s.mmio.count < s.mmio.length.toNat) :
      Move b s (s.setMmio { s.mmio with tdo := w, count := s.mmio.count + 1 })
  | finish {b : Bool} (s : State) : Move b s (s.setMmio s.mmio.clearBusy)
  | operands {b : Bool} (s : State) (length tms tdi : Word) (hb : s.mmio.busy = false) :
      Move b s (s.setMmio { s.mmio with length := length, tms := tms, tdi := tdi })
  | clkdiv {b : Bool} (s : State) (v : Word) (hb : s.mmio.busy = false) (hv : v.toNat ≤ s.cfg.divMax) :
      Move b s (s.setMmio { s.mmio with clkdiv := v })
  | delay {b : Bool} (s : State) (v : Word) (hb : s.mmio.busy = false) (hv : v.toNat ≤ s.cfg.delayMax) :
      Move b s (s.setMmio { s.mmio with delay := v })
  | start {b : Bool} (s : State) (hl : 1 ≤ s.mmio.length.toNat ∧ s.mmio.length.toNat ≤ 32) :
      Move b s (s.setMmio { s.mmio with ctrl := s.cfg.ctrlStart, busy := true, count := 0 })
  | shadow {b : Bool} (s : State) (v : Shadow) : Move b s (s.setShadow v)
  | host {b : Bool} (s : State) (v : HostSeq) : Move b s (s.setHost v)
  | ret {b : Bool} (s : State) (v : Ret) : Move b s (s.setRet v)
  | diags {b : Bool} (s : State) (v : List ErrorKind) : Move b s (s.setDiags v)
  | calls {b : Bool} (s : State) (v : List Byte) : Move b s (s.setCalls v)
  | draws {b : Bool} (s : State) (v : Nat) : Move b s (s.setDraws v)
  | statusReads {b : Bool} (s : State) (v : Nat) : Move b s (s.setStatusReads v)
  | identify {b : Bool} (s : State) (d : DeviceIdentity) (hi : s.identity = none) (hh : s.handle.isSome = true) :
      Move b s (s.setIdentity (some d))
  | adapter (s : State) (v : Usb) : Move true s (s.setUsb v)
  | driver (s : State) (v : UsbHost) : Move true s (s.setUsbHost v)
  | opened (s : State) (h : Handle) (hh : s.handle = none) : Move true s (s.opened h)

/-- A sequence of moves. -/
def Moves (b : Bool) : State → State → Prop := Relation.ReflTransGen (Move b)

theorem Moves.refl (b : Bool) (s : State) : Moves b s s := Relation.ReflTransGen.refl

theorem Move.moves {b : Bool} {s t : State} (h : Move b s t) : Moves b s t := Relation.ReflTransGen.single h

theorem Moves.trans {b : Bool} {s t u : State} (h : Moves b s t) (k : Moves b t u) : Moves b s u :=
  Relation.ReflTransGen.trans h k

theorem Moves.move {b : Bool} {s t u : State} (h : Moves b s t) (k : Move b t u) : Moves b s u :=
  Relation.ReflTransGen.tail h k

/-- What every move keeps, a sequence of them keeps. -/
theorem Moves.keep {b : Bool} {P : State → Prop} (h : ∀ s t, Move b s t → P s → P t) {s t : State} (m : Moves b s t)
    (hs : P s) : P t := by
  induction m with
  | refl => exact hs
  | tail _ k ih => exact h _ _ k ih

/-- Every state that a part of an operation leaves is reached by moves from `s`. -/
def Res.moves {α : Type} (b : Bool) (x : Res α) (s : State) : Prop := x.Leaves True (fun _ => Moves b s) (Moves b s)

section
variable {α β : Type} {b : Bool} {s t : State}

theorem Res.moves_from {x : Res α} (h : Moves b s t) (k : x.moves b t) : x.moves b s :=
  k.mono (fun _ _ => h.trans) fun _ => h.trans

theorem Res.moves_bind {x : Res α} {f : α → State → Res β} (h : x.moves b s) (k : ∀ a t, (f a t).moves b t) :
    (x.bind f).moves b s :=
  Res.Leaves.bind h fun a t m => Res.moves_from m (k a t)

theorem Res.moves_ok {a : α} (h : Move b s t) : (Res.ok a t).moves b s := h.moves

/-- A part that only looks at the state. -/
theorem Res.moves_same {a : α} : (Res.ok a s).moves b s := Moves.refl b s

theorem Res.moves_out {x : Res α} {g : α → State → State} (h : x.moves b s) (hg : ∀ a u, Move b u (g a u))
    (e : x.out g = .next t) : Moves b s t :=
  Res.Leaves.out h (fun a u m => m.move (hg a u)) e

end

/-! ### The target -/

/-- The TAPs of a chain take part in a cycle one by one (R173). -/
theorem chainCycle_forall₂ {draw : Nat} {tms : Bool} {j : Nat} {tdi : Bool} {ts ts' : List Tap} {o : Option Bool}
    (h : chainCycle draw tms j tdi ts = some (ts', o)) :
    List.Forall₂ (fun t t' => ∃ tdi free, t.cycle tms tdi free = some t') ts ts' := by
  induction ts generalizing j tdi ts' o with
  | nil => cases h; exact .nil
  | cons t ts ih =>
    unfold chainCycle at h
    split at h
    · cases h
    · rename_i t' ht
      cases ts with
      | nil => cases h; exact .cons ⟨_, _, ht⟩ .nil
      | cons u us =>
        simp only at h
        split at h
        · cases h
        · rename_i hc
          cases h
          exact .cons ⟨_, _, ht⟩ (ih hc)

theorem loseChain_forall₂ (draw j : Nat) (ts : List Tap) :
    List.Forall₂ (fun t t' => ∃ free, t' = t.lose free) ts (loseChain draw j ts) := by
  induction ts generalizing j with
  | nil => exact .nil
  | cons t ts ih => exact .cons ⟨_, rfl⟩ (ih (j + 1))

theorem Target.Move.chainCycle {draw j : Nat} {tms tdi : Bool} {ts ts' : List Tap} {o : Option Bool}
    (h : chainCycle draw tms j tdi ts = some (ts', o)) : Target.Move (.chain ts) (.chain ts') :=
  .chain ((chainCycle_forall₂ h).imp fun _ _ ⟨tdi, free, e⟩ => .cycle tms tdi free e)

theorem Target.Move.lose (draw : Nat) (x : Target) : x.Move (x.lose draw) := by
  cases x with
  | chain ts => exact .chain ((loseChain_forall₂ draw 0 ts).imp fun t _ ⟨free, e⟩ => e ▸ .lose t free)
  | loopback f => exact .loopback f

theorem Target.Move.map {f : Tap → Tap} (h : ∀ t, Tap.Move t (f t)) (ts : List Tap) :
    Target.Move (.chain ts) (.chain (ts.map f)) := by
  refine .chain ?_
  induction ts with
  | nil => exact .nil
  | cons t ts ih => exact .cons (h t) ih

/-- A cycle moves the target and the index of the free values, and never leaves the host stuck. -/
theorem clock_post (b : Bool) (pt : Nat × Nat) (tms tdi : Bool) (s : State) :
    (clock pt tms tdi s).Post (fun _ t => Moves b s t ∧ t = (s.setDraws (s.draws + 1)).setTarget t.target)
      fun _ => False := by
  have frame : (clock pt tms tdi s).Post (fun _ t => Moves b s t) fun _ => False := by
    unfold clock
    dsimp only
    split
    · split
      · exact (Move.draws s _).moves
      · rename_i ts hts
        split
        · trivial
        · rename_i hc
          exact (Move.draws s _).moves.move (.target _ _ (by simpa [hts] using .chainCycle hc))
    · exact (Move.draws s _).moves.move (.target _ _ (.lose _ _))
  cases h : clock pt tms tdi s with
  | ok x t => rw [h] at frame; exact ⟨frame, clock_eq_ok h⟩
  | stuck t => rw [h] at frame; exact frame
  | fault f => trivial
  | refused r => trivial

theorem clock_moves (b : Bool) (pt : Nat × Nat) (tms tdi : Bool) (s : State) : (clock pt tms tdi s).moves b s :=
  (clock_post b pt tms tdi s).mono (fun _ _ h => h.1) fun _ => False.elim

theorem clockAll_moves (b : Bool) (pt : Nat × Nat) (v : List (Bool × Bool)) (s : State) : (clockAll pt v s).moves b s := by
  induction v generalizing s with
  | nil => exact Res.moves_same
  | cons p v ih =>
    exact Res.moves_bind (clock_moves b pt p.1 p.2 s) fun _ t => Res.moves_bind (ih t) fun _ _ => Res.moves_same

/-! ### What an operation asks of the handle -/

theorem raise_moves (b : Bool) (k : ErrorKind) (s : State) : (raise k s).moves b s := by
  cases k
  case transportOpenFailure | transportTimeout => trivial
  case detectionFailure | calibrationEmpty | hardeningRejected | outOfRangeParameter => exact Res.moves_ok (.diags s _)

theorem needHandle_post (s : State) : (needHandle s).Post (fun h t => s.handle = some h ∧ t = s) fun _ => False := by
  unfold needHandle; split
  · exact ⟨‹_›, rfl⟩
  · trivial

theorem needMmio_post (s : State) :
    (needMmio s).Post (fun _ t => (∃ i, s.handle = some (.mmio i)) ∧ t = s) fun _ => False := by
  unfold needMmio; split
  · exact ⟨⟨_, ‹_›⟩, rfl⟩
  all_goals trivial

theorem needUsb_post (s : State) :
    (needUsb s).Post (fun _ t => (∃ a, s.handle = some (.usb a)) ∧ t = s) fun _ => False := by
  unfold needUsb; split
  · exact ⟨⟨_, ‹_›⟩, rfl⟩
  all_goals trivial

theorem needIdentity_post (s : State) :
    (needIdentity s).Post (fun d t => s.identity = some d ∧ t = s) fun _ => False := by
  unfold needIdentity; split
  · exact ⟨‹_›, rfl⟩
  · trivial

theorem needTarget_post (s : State) : (needTarget s).Post (fun _ t => s.mmio.busy = false ∧ t = s) fun _ => False := by
  refine (needHandle_post s).look fun _ _ => ?_
  split
  · trivial
  · exact ⟨Bool.eq_false_of_not_eq_true ‹_›, rfl⟩

/-! ### The MMIO side -/

theorem engineTick_moves (b : Bool) {s : State} (hb : s.mmio.busy = true) : (engineTick s).moves b s := by
  unfold engineTick
  split
  · rename_i hc
    refine (clock_post b _ _ _ s).seq fun x t ⟨m, e⟩ => ?_
    have e' : t.mmio = s.mmio := by rw [e]; rfl
    exact m.move (.sample t _ (by rw [e', hb]) (by rw [e']; exact hc))
  · exact Res.moves_ok (.finish s)

theorem engineTicks_moves (b : Bool) (k : Nat) (s : State) : (engineTicks k s).moves b s := by
  induction k generalizing s with
  | zero => exact Res.moves_same
  | succ k ih =>
    unfold engineTicks
    split
    · exact Res.moves_bind (engineTick_moves b ‹_›) fun _ t => ih t
    · exact Res.moves_same

theorem engineTurn_moves (b : Bool) (s : State) : (engineTurn s).moves b s := by
  unfold engineTurn
  split
  · split
    · exact Res.moves_from (Move.env s _ _ _).moves (engineTicks_moves b _ _)
    · split
      · exact engineTicks_moves b _ s
      · exact Res.moves_same
  · exact Res.moves_same

theorem mmioWrite_post (f : Mmio → Mmio) (s : State) :
    (mmioWrite f s).Post (fun _ t => s.mmio.busy = false ∧ t = s.setMmio (f s.mmio)) fun _ => False := by
  refine (needMmio_post s).look fun _ _ => ?_
  split
  · trivial
  · exact ⟨Bool.eq_false_of_not_eq_true ‹_›, rfl⟩

/-- A register write moves as the register does, on an idle sequencer. -/
theorem mmioWrite_moves {b : Bool} {f : Mmio → Mmio} {s : State}
    (h : s.mmio.busy = false → Move b s (s.setMmio (f s.mmio))) : (mmioWrite f s).moves b s :=
  (mmioWrite_post f s).mono (fun _ _ ⟨hb, e⟩ => e ▸ (h hb).moves) fun _ => False.elim

/-- So does a bounded one, where the value is a legal one (R26, R27). -/
theorem mmioWriteIn_moves {b : Bool} {max : Nat} {v : Word} {f : Mmio → Mmio} {s : State}
    (h : s.mmio.busy = false → v.toNat ≤ max → Move b s (s.setMmio (f s.mmio))) : (mmioWriteIn max v f s).moves b s := by
  refine (needMmio_post s).look fun _ _ => ?_
  split
  · trivial
  · split
    · exact raise_moves b _ s
    · exact Res.moves_ok (h (Bool.eq_false_of_not_eq_true ‹_›) (by omega))

theorem mmioStart_moves (b : Bool) (s : State) : (mmioStart s).moves b s := by
  refine (needMmio_post s).look fun _ _ => ?_
  split
  · trivial
  · split
    · exact Res.moves_ok (.start s ‹_›)
    · trivial

theorem mmioStatus_moves (b : Bool) (s : State) : (mmioStatus s).moves b s :=
  (needMmio_post s).look fun _ _ => Res.moves_ok (.statusReads s _)

theorem mmioTdo_moves (b : Bool) (s : State) : (mmioTdo s).moves b s := by
  refine (needMmio_post s).look fun _ _ => ?_
  split
  · trivial
  · exact Res.moves_same

theorem mmioReadBack_moves (b : Bool) (s : State) : (mmioReadBack s).moves b s :=
  (needMmio_post s).look fun _ _ => Res.moves_ok (.draws s _)

theorem busyPoll_moves (b : Bool) (pace : List Nat) (polls : Nat) (s : State) : (busyPoll pace polls s).moves b s := by
  induction pace generalizing polls s with
  | nil =>
    unfold busyPoll
    split
    · exact Res.moves_bind (engineTicks_moves b _ s) fun _ t =>
        Res.moves_bind (mmioStatus_moves b t) fun _ _ => Res.moves_same
    · split
      · trivial
      · exact (Move.host s _).moves
  | cons k rest ih =>
    unfold busyPoll
    refine Res.moves_bind (Res.moves_from (Move.env s rest _ _).moves (engineTicks_moves b _ _)) fun _ t => ?_
    refine Res.moves_bind (mmioStatus_moves b t) fun v u => ?_
    split
    · split
      · trivial
      · exact ih _ u
    · exact Res.moves_same

theorem chunkWrite_moves {b first same : Bool} {f : Mmio → Mmio} {g : Shadow → Shadow} {s : State}
    (h : s.mmio.busy = false → Move b s (s.setMmio (f s.mmio))) : (chunkWrite first same f g s).moves b s := by
  unfold chunkWrite
  split
  · exact Res.moves_same
  · exact Res.moves_bind (mmioWrite_moves h) fun _ t => Res.moves_ok (.shadow t _)

theorem mmioChunk_moves (b : Bool) (tms tdi : List Byte) (first : Bool) (s : State) :
    (mmioChunk tms tdi first s).moves b s :=
  Res.moves_bind (chunkWrite_moves (.operands s _ _ _)) fun _ s1 =>
  Res.moves_bind (chunkWrite_moves (.operands s1 _ _ _)) fun _ s2 =>
  Res.moves_bind (chunkWrite_moves (.operands s2 _ _ _)) fun _ s3 =>
  Res.moves_bind (mmioStart_moves b s3) fun _ s4 =>
  Res.moves_bind (busyPoll_moves b _ _ s4) fun _ s5 =>
  Res.moves_bind (mmioTdo_moves b s5) fun _ s6 => Res.moves_ok (.host s6 _)

theorem mmioLoop_moves (b : Bool) (tms tdi : List Byte) (fuel : Nat) (first : Bool) (s : State) :
    (mmioLoop tms tdi fuel first s).moves b s := by
  induction fuel generalizing first s with
  | zero => exact Res.moves_same
  | succ fuel ih =>
    unfold mmioLoop
    split
    · exact Res.moves_same
    · exact Res.moves_bind (mmioChunk_moves b tms tdi first s) fun _ t => ih false t

theorem mmioShift_moves (b : Bool) (n : Nat) (tms tdi : List Byte) (s : State) : (mmioShift n tms tdi s).moves b s :=
  Res.moves_bind
    (Res.moves_from ((Move.shadow s _).moves.move (.host _ _)) (mmioLoop_moves b tms tdi _ _ _)) fun _ t =>
      Res.moves_ok (.host t _)

/-! ### The USB side -/

theorem adapterByte_moves (e : Bool) (d : Byte) (s : State) : (adapterByte e d s).moves true s :=
  Res.moves_bind (clockAll_moves true _ _ s) fun _ t => Res.moves_ok (.adapter t _)

theorem adapterByteShift_moves (e : Bool) (d : List Byte) (s : State) : (adapterByteShift e d s).moves true s := by
  induction d generalizing s with
  | nil => exact Res.moves_same
  | cons x d ih => exact Res.moves_bind (adapterByte_moves e x s) fun _ t => ih t

theorem adapterBitShift_moves (e : Bool) (r : Nat) (d : Byte) (s : State) : (adapterBitShift e r d s).moves true s :=
  Res.moves_bind (clockAll_moves true _ _ s) fun _ t => Res.moves_ok (.adapter t _)

theorem adapterTmsShift_moves (e : Bool) (r : Nat) (d : Byte) (s : State) : (adapterTmsShift e r d s).moves true s :=
  Res.moves_bind (clockAll_moves true _ _ s) fun _ t => Res.moves_ok (.adapter t _)

theorem adapterSetDivisor_moves (div : Half) (s : State) : (adapterSetDivisor div s).moves true s :=
  Res.moves_ok (.adapter s _)

theorem adapterExec_moves (i : Instr) (s : State) : (adapterExec i s).moves true s := by
  unfold adapterExec
  split
  · exact adapterByteShift_moves _ _ s
  · exact adapterBitShift_moves _ _ _ s
  · exact adapterTmsShift_moves _ _ _ s
  · exact adapterSetDivisor_moves _ s
  · trivial

theorem adapterRun_moves (fuel : Nat) (s : State) : (adapterRun fuel s).moves true s := by
  induction fuel generalizing s with
  | zero => exact Res.moves_same
  | succ fuel ih =>
    unfold adapterRun
    split
    · exact Res.moves_same
    · trivial
    · exact Res.moves_bind (Res.moves_from (Move.adapter s _).moves (adapterExec_moves _ _)) fun _ t => ih t

theorem deviceTurn_moves (s : State) : (deviceTurn s).moves true s := by
  refine Res.moves_bind (engineTurn_moves true s) fun _ t => ?_
  split
  · exact adapterRun_moves _ t
  · exact Res.moves_same

theorem usbAccept_moves (s : State) : (usbAccept s).moves true s := by
  unfold usbAccept
  split
  · exact Res.moves_same
  · exact Res.moves_ok (.env s _ _ _)
  · trivial

theorem usbWrite_moves (bytes : List Byte) (s : State) : (usbWrite bytes s).moves true s :=
  Res.moves_bind (usbAccept_moves s) fun _ t => Res.moves_from (Move.adapter t _).moves (adapterRun_moves _ _)

theorem usbRead_moves (deliveries : List Transfer) (k : Nat) (got : List Byte) (s : State) :
    (usbRead deliveries k got s).moves true s := by
  induction deliveries generalizing k got s with
  | nil =>
    unfold usbRead
    split
    · exact Res.moves_ok (.adapter s _)
    · exact (Move.host s _).moves
  | cons d rest ih =>
    cases d with
    | error => trivial
    | bytes d =>
      unfold usbRead
      dsimp only
      have m := (Move.adapter s { s.usb with rspq := s.usb.rspq.drop (min d k) }).moves.move (.env _ s.env.pace rest s.env.writes)
      split
      · exact m
      · exact Res.moves_from m (ih _ _ _)

theorem usbFlush_moves (s : State) : (usbFlush s).moves true s := by
  unfold usbFlush
  dsimp only
  split
  · exact Res.moves_ok (.driver s _)
  · exact Res.moves_bind (Res.moves_from (Move.driver s _).moves (usbWrite_moves _ _)) fun _ t =>
      Res.moves_bind (usbRead_moves _ _ _ t) fun _ u => (Move.host u _).moves.move (.driver _ _)

theorem usbEmit_moves (bytes : List Byte) (ds : List Descriptor) (s : State) : (usbEmit bytes ds s).moves true s := by
  refine Res.moves_bind ?_ fun _ t => Res.moves_ok (.driver t _)
  split
  · exact Res.moves_from (Move.driver s _).moves (usbFlush_moves _)
  · exact Res.moves_ok (.driver s _)

theorem byteArm_moves (i : Nat) (d : Byte) (s : State) : (byteArm i d s).moves true s := by
  unfold byteArm
  split
  · exact Res.moves_ok (.driver s _)
  · refine Res.moves_bind ?_ fun _ t => Res.moves_ok (.driver t _)
    split
    · exact usbFlush_moves s
    · exact Res.moves_same

theorem tmsArm_moves (i : Nat) (m d : Byte) (bits : List Nat) (s : State) : (tmsArm i m d bits s).moves true s := by
  induction bits generalizing s with
  | nil => exact Res.moves_same
  | cons x bits ih =>
    exact Res.moves_bind (usbEmit_moves _ _ s) fun _ t => Res.moves_from (Move.driver t _).moves (ih _)

theorem usbByte_moves (n : Nat) (tms tdi : List Byte) (s : State) : (usbByte n tms tdi s).moves true s := by
  refine Res.moves_bind ?_ fun _ t => Res.moves_ok (.host t _)
  split
  · exact byteArm_moves _ _ s
  · split
    · exact usbEmit_moves _ _ s
    · exact tmsArm_moves _ _ _ _ s

theorem usbLoop_moves (n : Nat) (tms tdi : List Byte) (fuel : Nat) (s : State) :
    (usbLoop n tms tdi fuel s).moves true s := by
  induction fuel generalizing s with
  | zero => exact Res.moves_same
  | succ fuel ih =>
    unfold usbLoop
    split
    · exact Res.moves_bind (usbByte_moves n tms tdi s) fun _ t => ih t
    · exact Res.moves_same

theorem usbShift_moves (n : Nat) (tms tdi : List Byte) (s : State) : (usbShift n tms tdi s).moves true s :=
  Res.moves_bind
    (Res.moves_from ((Move.driver s _).moves.move (.host _ _)) (usbLoop_moves n tms tdi _ _)) fun _ t =>
      Res.moves_bind (usbFlush_moves t) fun _ u => Res.moves_ok (.host u _)

/-! ### Operations of the contract -/

theorem openTransport_moves (p : OpenParams) (s : State) : (openTransport p s).moves true s := by
  unfold openTransport
  split
  · trivial
  · split
    · exact Res.moves_ok (.opened s _ ‹_›)
    · trivial

theorem shift_moves (n : Int) (buf : List Byte) (s : State) : (shift n buf s).moves true s := by
  refine (needHandle_post s).look fun h _ => ?_
  split
  · trivial
  · split
    · exact Res.moves_same
    · cases h with
      | mmio i => exact mmioShift_moves true _ _ _ s
      | usb a => exact usbShift_moves _ _ _ s

theorem shiftPairs_moves (v : List (Bool × Bool)) (s : State) : (shiftPairs v s).moves true s := shift_moves _ _ s

/-- A value in a register's legal range stays in it when it is stored in 32 bits. -/
theorem toNat_ofNat_le_of_le {v : Int} {max : Nat} (h : ¬(v < 0 ∨ (max : Int) < v)) :
    (BitVec.ofNat 32 v.toNat).toNat ≤ max := by
  rw [BitVec.toNat_ofNat]
  exact (Nat.mod_le _ _).trans (by omega)

theorem setClockDivisor_moves (v : Int) (s : State) : (setClockDivisor v s).moves true s := by
  refine (needHandle_post s).look fun h _ => ?_
  cases h with
  | mmio i =>
    dsimp only
    split
    · exact raise_moves true _ s
    · exact mmioWrite_moves fun hb => .clkdiv s _ hb (toNat_ofNat_le_of_le ‹_›)
  | usb a => exact Res.moves_from (Move.adapter s _).moves (usbWrite_moves _ _)

theorem setTimingParam_moves (v : Int) (s : State) : (setTimingParam v s).moves true s := by
  refine (needHandle_post s).look fun h _ => ?_
  cases h with
  | mmio i =>
    dsimp only
    split
    · exact raise_moves true _ s
    · exact mmioWrite_moves fun hb => .delay s _ hb (toNat_ofNat_le_of_le ‹_›)
  | usb a => exact Res.moves_ok (.driver s _)

/-! ### Probes -/

theorem probeIdcode_moves (s : State) : (probeIdcode s).moves true s :=
  (needHandle_post s).look fun _ _ =>
  (needIdentity_post s).look fun _ _ =>
  Res.moves_bind (shiftPairs_moves _ s) fun _ _ => Res.moves_same

theorem scanChain_moves (s : State) : (scanChain s).moves true s :=
  Res.moves_bind (shiftPairs_moves _ s) fun _ _ => Res.moves_same

theorem probeBypassVec_moves (values : List Word) (s : State) : (probeBypassVec values s).moves true s := by
  refine (needHandle_post s).look fun _ _ => (needIdentity_post s).look fun d _ => ?_
  split
  · trivial
  · exact Res.moves_bind (shiftPairs_moves _ _) fun _ t =>
      Res.moves_bind (shiftPairs_moves _ t) fun _ _ => Res.moves_same

/-- The handle and what is known of the device are the same in both. -/
def SameInstance (s t : State) : Prop := t.handle = s.handle ∧ t.identity = s.identity

theorem SameInstance.trans {s t u : State} (h : SameInstance s t) (k : SameInstance t u) : SameInstance s u :=
  ⟨k.1.trans h.1, k.2.trans h.2⟩

theorem Kept.sameInstance {s t : State} (h : Kept s t) : SameInstance s t := by
  obtain ⟨-, hh, hi, -⟩ := h
  exact ⟨hh, hi⟩

theorem raise_sameInstance (k : ErrorKind) (s : State) :
    (raise k s).Post (fun _ => SameInstance s) (SameInstance s) := by
  cases k
  case transportOpenFailure | transportTimeout => trivial
  case detectionFailure | calibrationEmpty | hardeningRejected | outOfRangeParameter => exact ⟨rfl, rfl⟩

theorem mmioWrite_sameInstance (f : Mmio → Mmio) (s : State) :
    (mmioWrite f s).Post (fun _ => SameInstance s) (SameInstance s) :=
  (mmioWrite_post f s).mono (fun _ _ ⟨_, e⟩ => e ▸ ⟨rfl, rfl⟩) fun _ => False.elim

/-- The setters change neither the handle nor the identity. -/
theorem setClockDivisor_sameInstance (v : Int) (s : State) :
    (setClockDivisor v s).Post (fun _ => SameInstance s) (SameInstance s) := by
  refine (needHandle_post s).look fun h _ => ?_
  cases h with
  | mmio i =>
    dsimp only
    split
    · exact raise_sameInstance _ s
    · exact mmioWrite_sameInstance _ s
  | usb a =>
    exact (usbWrite_keeps _ _).post.mono (fun _ _ k => k.sameInstance) fun _ k => k.sameInstance

theorem setTimingParam_sameInstance (v : Int) (s : State) :
    (setTimingParam v s).Post (fun _ => SameInstance s) (SameInstance s) := by
  refine (needHandle_post s).look fun h _ => ?_
  cases h with
  | mmio i =>
    dsimp only
    split
    · exact raise_sameInstance _ s
    · exact mmioWrite_sameInstance _ s
  | usb a => exact ⟨rfl, rfl⟩

/-- The sweep moves on from a state with a handle and no identity, so that the identity it sets is the first. -/
theorem detectSweep_moves (tps : List Nat) {s : State} (hi : s.identity = none) (hh : s.handle.isSome = true) :
    (detectSweep tps s).moves true s := by
  induction tps generalizing s with
  | nil => exact raise_moves true _ s
  | cons tp rest ih =>
    have h1 : (setTimingParam tp s).Post (fun _ t => Moves true s t ∧ SameInstance s t) (Moves true s) :=
      (setTimingParam_moves tp s).and (setTimingParam_sameInstance tp s)
    refine h1.bind fun _ s1 ⟨m1, i1⟩ => ?_
    have h2 : (scanChain s1).Post (fun _ t => Moves true s1 t ∧ SameInstance s1 t) (Moves true s1) :=
      (scanChain_moves s1).and ((scanChain_keeps s1).post.mono (fun _ _ k => k.sameInstance) fun _ k => k.sameInstance)
    refine Res.moves_from m1 (h2.bind fun id s2 ⟨m2, i2⟩ => ?_)
    obtain ⟨eh, ei⟩ := i1.trans i2
    rw [hi] at ei
    rw [← eh] at hh
    refine Res.moves_from m2 ?_
    split
    · exact Res.moves_ok (.identify s2 _ ei hh)
    · exact ih ei hh

theorem detect_moves (s : State) : (detect s).moves true s := by
  refine (needHandle_post s).look fun h hh => ?_
  split
  · exact Res.moves_same
  · rename_i hi
    have h1 : (setClockDivisor (slowestDivisor s.cfg h) s).Post (fun _ t => Moves true s t ∧ SameInstance s t)
        (Moves true s) := (setClockDivisor_moves _ s).and (setClockDivisor_sameInstance _ s)
    refine h1.bind fun _ t ⟨m, eh, ei⟩ => Res.moves_from m (detectSweep_moves _ (ei.trans hi) ?_)
    rw [eh, hh]
    rfl

/-! ### Operations on the target -/

theorem tckIn_moves (b : Bool) (x : TapState) (tms tdi : Bool) (s : State) : (tckIn x tms tdi s).moves b s := by
  refine (needTarget_post s).look fun _ _ => ?_
  split
  · trivial
  · rename_i ts hts
    split
    · split
      · trivial
      · rename_i hc
        exact (Move.target s _ (by rw [hts]; exact .chainCycle hc)).moves.move (.draws _ _)
    · trivial

theorem latchCode_moves {b : Bool} {f : TapParams → Bits} (h : ∀ t : Tap, t.Move (t.latch (f t.par))) (s : State) :
    (latchCode f s).moves b s := by
  refine (needTarget_post s).look fun _ _ => ?_
  split
  · trivial
  · rename_i ts hts
    exact Res.moves_ok (.target s _ (by rw [hts]; exact .map h ts))

/-! ### Every operation, and the step -/

/-- The J and M operations make only moves at `false`. -/
def mayMoveUsb : Instr → Bool
  | .jTckTestLogicReset _ _ | .jTckRunTestIdle _ _ | .jTckSelectDrScan _ _ | .jTckCaptureDr _ _
  | .jTckShiftDr _ _ | .jTckExit1Dr _ _ | .jTckPauseDr _ _ | .jTckExit2Dr _ _ | .jTckUpdateDr _ _
  | .jTckSelectIrScan _ _ | .jTckCaptureIr _ _ | .jTckShiftIr _ _ | .jTckExit1Ir _ _ | .jTckPauseIr _ _
  | .jTckExit2Ir _ _ | .jTckUpdateIr _ _ | .jIdcode | .jBypass
  | .mWrLength _ | .mWrTms _ | .mWrTdi _ | .mWrStart | .mRdStatus | .mRdTdo | .mWrClkdiv _ | .mWrDelay _ => false
  | _ => true

theorem exec_moves (i : Instr) {s t : State} (h : exec i s = .next t) : Moves (mayMoveUsb i) s t := by
  cases i
  case tOpen p => exact Res.moves_out (openTransport_moves p s) (fun _ u => .ret u _) h
  case tShift n buf => exact Res.moves_out (shift_moves n buf s) (fun _ u => .ret u _) h
  case tSetClockDivisor v => exact Res.moves_out (setClockDivisor_moves v s) (fun _ u => .ret u _) h
  case tSetTimingParam v => exact Res.moves_out (setTimingParam_moves v s) (fun _ u => .ret u _) h
  case jIdcode => exact Res.moves_out (latchCode_moves .latchIdcode s) (fun _ u => .ret u _) h
  case jBypass => exact Res.moves_out (latchCode_moves .latchBypass s) (fun _ u => .ret u _) h
  case mWrLength v => exact Res.moves_out (mmioWrite_moves (.operands s _ _ _)) (fun _ u => .ret u _) h
  case mWrTms v => exact Res.moves_out (mmioWrite_moves (.operands s _ _ _)) (fun _ u => .ret u _) h
  case mWrTdi v => exact Res.moves_out (mmioWrite_moves (.operands s _ _ _)) (fun _ u => .ret u _) h
  case mWrStart => exact Res.moves_out (mmioStart_moves _ s) (fun _ u => .ret u _) h
  case mRdStatus => exact Res.moves_out (mmioStatus_moves _ s) (fun _ u => .ret u _) h
  case mRdTdo => exact Res.moves_out (mmioTdo_moves _ s) (fun _ u => .ret u _) h
  case mWrClkdiv v => exact Res.moves_out (mmioWriteIn_moves (.clkdiv s v)) (fun _ u => .ret u _) h
  case mWrDelay v => exact Res.moves_out (mmioWriteIn_moves (.delay s v)) (fun _ u => .ret u _) h
  case uByteShift e d =>
    exact Res.moves_out ((needUsb_post s).look fun _ _ => adapterByteShift_moves e d s) (fun _ u => .ret u _) h
  case uBitShift e r d =>
    exact Res.moves_out ((needUsb_post s).look fun _ _ => adapterBitShift_moves e r d s) (fun _ u => .ret u _) h
  case uTmsShift e r b =>
    refine Res.moves_out (g := giveSent) ?_ (fun _ u => .ret u _) h
    exact (needUsb_post s).look fun _ _ => Res.moves_from (Move.driver s _).moves (adapterTmsShift_moves e r b _)
  case uSetDivisor div =>
    exact Res.moves_out ((needUsb_post s).look fun _ _ => adapterSetDivisor_moves div s) (fun _ u => .ret u _) h
  case uFlush => exact Res.moves_out ((needUsb_post s).look fun _ _ => usbFlush_moves s) (fun _ u => .ret u _) h
  case pProbeIdcode => exact Res.moves_out (probeIdcode_moves s) (fun _ u => .ret u _) h
  case pScanChain => exact Res.moves_out (scanChain_moves s) (fun _ u => .ret u _) h
  case pDetect => exact Res.moves_out (detect_moves s) (fun _ u => .ret u _) h
  case pProbeBypass v => exact Res.moves_out (probeBypassVec_moves [v] s) (fun _ u => .ret u _) h
  case pProbeBypassVec vs => exact Res.moves_out (probeBypassVec_moves vs s) (fun _ u => .ret u _) h
  all_goals exact Res.moves_out (tckIn_moves _ _ _ _ s) (fun _ u => .ret u _) h

/-- The host's turn is one operation, a read of another register, or nothing. -/
theorem hostTurn_cases {s t : State} (h : hostTurn s = .next t) :
    t = s ∨ (∃ i rest, exec i (s.setCalls rest) = .next t)
      ∨ (∃ rest, (mmioReadBack (s.setCalls rest)).out giveWord = .next t) ∨ ∃ rest, t = s.setCalls rest := by
  unfold hostTurn at h
  split at h
  · cases h; exact .inl rfl
  · exact .inr (.inl ⟨_, _, h⟩)
  · exact .inr (.inr (.inl ⟨_, h⟩))
  · cases h; exact .inr (.inr (.inr ⟨_, rfl⟩))
  · cases h

/-- A step of a stuck host is none; otherwise the devices' turn leaves the host stuck, or the host's turn follows it. -/
theorem step_cases {s t : State} (h : step s = .next t) :
    t = s ∨ s.host.phase = .ready ∧ (deviceTurn s = .stuck t ∨ ∃ u, deviceTurn s = .ok () u ∧ hostTurn u = .next t) := by
  unfold step at h
  split at h
  · cases h; exact .inl rfl
  · cases h; exact .inl rfl
  · refine .inr ⟨‹_›, ?_⟩
    split at h
    · exact .inr ⟨_, ‹_›, h⟩
    · cases h; exact .inl ‹_›
    · cases h
    · cases h

/-- A move at `false` is one of those at `true`. -/
theorem Move.weaken {b : Bool} {s t : State} (h : Move b s t) : Move true s t := by
  cases h <;> constructor <;> assumption

theorem Moves.weaken {b : Bool} {s t : State} (h : Moves b s t) : Moves true s t :=
  Relation.ReflTransGen.mono (r := Move b) (fun _ _ => Move.weaken) _ _ h

theorem hostTurn_moves {s t : State} (h : hostTurn s = .next t) : Moves true s t := by
  obtain rfl | ⟨i, rest, h⟩ | ⟨rest, h⟩ | ⟨rest, rfl⟩ := hostTurn_cases h
  · exact .refl _ _
  · exact (Move.calls s rest).moves.trans (exec_moves i h).weaken
  · exact (Move.calls s rest).moves.trans (Res.moves_out (mmioReadBack_moves true _) (fun _ u => .ret u _) h)
  · exact (Move.calls s rest).moves

/-- Every step is a sequence of moves. -/
theorem step_moves {s t : State} (h : step s = .next t) : Moves true s t := by
  obtain rfl | ⟨-, h | ⟨u, h, k⟩⟩ := step_cases h
  · exact .refl _ _
  · have m := deviceTurn_moves s
    rw [h] at m
    exact m
  · have m := deviceTurn_moves s
    rw [h] at m
    exact Moves.trans m (hostTurn_moves k)

end Sys2Proof.Machine
end

section
/-! ## Invariants of every move

Each of the invariants is kept by every kind of move, so by every step. -/

namespace Sys2Proof.Machine

/-- What every move keeps, every step keeps. -/
theorem step_keeps_of_move {P : State → Prop} (h : ∀ s t, Move true s t → P s → P t) {s t : State} (hs : P s)
    (e : step s = .next t) : P t :=
  (step_moves e).keep h hs

/-! ### The TAPs' registers (O50) -/

@[simp] theorem bitsOfNat_length (w x : Nat) : (bitsOfNat w x).length = w := by
  induction w generalizing x with
  | zero => rfl
  | succ w ih => simp [bitsOfNat, ih]

@[simp] theorem fitBits_length (w : Nat) (bs : Bits) : (fitBits w bs).length = w := by
  induction w generalizing bs with
  | zero => rfl
  | succ w ih => cases bs <;> simp [fitBits, ih]

@[simp] theorem shiftStage_length (r : Bits) (tdi : Bool) : (shiftStage r tdi).length = r.length := by
  simp [shiftStage]

@[simp] theorem wordBits_length (w : Word) : (wordBits w).length = 32 := bitsOfNat_length 32 _

@[simp] theorem TapParams.bypassCode_length (p : TapParams) : p.bypassCode.length = p.irLength := by
  simp [TapParams.bypassCode]

@[simp] theorem TapParams.idcodeCode_length (p : TapParams) : p.idcodeCode.length = p.irLength :=
  bitsOfNat_length _ _

@[simp] theorem TapParams.resetCode_length (p : TapParams) : p.resetCode.length = p.irLength := by
  unfold TapParams.resetCode; split <;> simp

theorem Tap.widthsOk_iff {t : Tap} : t.widthsOk = true ↔
    t.instr.length = t.par.irLength ∧ t.irSr.length = t.par.irLength ∧ t.drSr.length ≤ 32 := by
  simp [Tap.widthsOk, and_assoc]

theorem Tap.lose_widthsOk (t : Tap) (free : TapRegs) : (t.lose free).widthsOk = true := by
  simp [Tap.widthsOk_iff, Tap.lose]

/-- The action of a cycle loads a register with as many bits as it is wide, or moves its bits along. -/
theorem Tap.act_widthsOk {t t' : Tap} {tdi : Bool} (h : t.act tdi = some t') (ht : t.widthsOk = true) :
    t'.widthsOk = true := by
  obtain ⟨hi, hs, hd⟩ := Tap.widthsOk_iff.1 ht
  unfold Tap.act at h
  split at h
  · split at h
    · cases h; exact Tap.widthsOk_iff.2 ⟨hi, hs, by simp⟩
    · cases h; exact Tap.widthsOk_iff.2 ⟨hi, hs, by simp⟩
    · cases h
  · split at h
    · cases h
    · cases h; exact Tap.widthsOk_iff.2 ⟨hi, hs, by simpa using hd⟩
  · cases h; exact Tap.widthsOk_iff.2 ⟨hi, by simp, hd⟩
  · cases h; exact Tap.widthsOk_iff.2 ⟨hi, by simpa using hs, hd⟩
  · cases h; exact ht

/-- Entering a state latches the instruction shift stage, or the reset instruction, or nothing. -/
theorem Tap.enter_widthsOk {t : Tap} (tms : Bool) (ht : t.widthsOk = true) : (t.enter tms).widthsOk = true := by
  obtain ⟨hi, hs, hd⟩ := Tap.widthsOk_iff.1 ht
  unfold Tap.enter
  split
  · exact Tap.widthsOk_iff.2 ⟨hs, hs, hd⟩
  · exact Tap.widthsOk_iff.2 ⟨by simp, hs, hd⟩
  · exact Tap.widthsOk_iff.2 ⟨hi, hs, hd⟩

theorem Tap.cycleUnknown_widthsOk (t : Tap) (tms : Bool) (free : TapRegs) :
    (t.cycleUnknown tms free).widthsOk = true := by
  obtain ⟨hi, hs, hd⟩ := Tap.widthsOk_iff.1 (t.lose_widthsOk free)
  unfold Tap.cycleUnknown
  dsimp only
  split
  · split
    · exact Tap.widthsOk_iff.2 ⟨t.par.resetCode_length, hs, hd⟩
    · exact Tap.widthsOk_iff.2 ⟨hi, hs, hd⟩
  · exact Tap.widthsOk_iff.2 ⟨hi, hs, hd⟩

theorem Tap.latch_widthsOk {t : Tap} {code : Bits} (hc : code.length = t.par.irLength) (ht : t.widthsOk = true) :
    (t.latch code).widthsOk = true := by
  obtain ⟨_, hs, hd⟩ := Tap.widthsOk_iff.1 ht
  unfold Tap.latch
  split
  · exact ht
  · exact Tap.widthsOk_iff.2 ⟨hc, hs, hd⟩

theorem Tap.Move.widthsOk {t t' : Tap} (m : t.Move t') (ht : t.widthsOk = true) : t'.widthsOk = true := by
  cases m with
  | cycle tms tdi free h =>
    unfold Tap.cycle at h
    split at h
    · obtain ⟨u, hu, rfl⟩ := Option.map_eq_some_iff.1 h
      exact Tap.enter_widthsOk tms (Tap.act_widthsOk hu ht)
    · cases h; exact t.cycleUnknown_widthsOk tms free
  | lose free => exact t.lose_widthsOk free
  | latchIdcode => exact Tap.latch_widthsOk (by simp) ht
  | latchBypass => exact Tap.latch_widthsOk (by simp) ht

/-- A property of TAPs that every move of a TAP keeps is kept along a chain. -/
theorem forall_of_tapMoves {p : Tap → Prop} (hp : ∀ t t', Tap.Move t t' → p t → p t') {ts ts' : List Tap}
    (h : List.Forall₂ Tap.Move ts ts') (hs : ∀ t ∈ ts, p t) : ∀ t ∈ ts', p t := by
  induction h with
  | nil => exact hs
  | cons hm _ ih =>
    obtain ⟨h1, h2⟩ := List.forall_mem_cons.1 hs
    exact List.forall_mem_cons.2 ⟨hp _ _ hm h1, ih h2⟩

theorem State.tapsOk_iff {s : State} : s.tapsOk = true ↔ ∀ ts, s.target = .chain ts → ∀ t ∈ ts, t.widthsOk = true := by
  unfold State.tapsOk
  cases s.target <;> simp

/-- A move of the target keeps what every move of a TAP keeps of all TAPs of the chain. -/
theorem Target.Move.forall {p : Tap → Prop} (hp : ∀ t t', Tap.Move t t' → p t → p t') {x y : Target} (m : x.Move y)
    (hx : ∀ ts, x = .chain ts → ∀ t ∈ ts, p t) : ∀ ts, y = .chain ts → ∀ t ∈ ts, p t := by
  cases m with
  | chain h =>
    rintro _ ⟨⟩
    exact forall_of_tapMoves hp h (hx _ rfl)
  | loopback f => exact hx

/-- A property of every TAP of the target is kept by every move of the machine. -/
theorem Move.forall_taps {p : Tap → Prop} (hp : ∀ t t', Tap.Move t t' → p t → p t') {b : Bool} {s t : State}
    (m : Move b s t) (hs : ∀ ts, s.target = .chain ts → ∀ u ∈ ts, p u) :
    ∀ ts, t.target = .chain ts → ∀ u ∈ ts, p u := by
  cases m
  case target v h => exact h.forall hp hs
  case opened h hh => exact (Target.Move.lose s.draws s.target).forall hp hs
  all_goals exact hs

/-- Settles O50: every kind of move of a TAP keeps the widths of its registers. -/
theorem tapWidthsKept : Obligations.TapWidthsKept := by
  intro s t hs e
  exact State.tapsOk_iff.2 (step_keeps_of_move (fun _ _ m => m.forall_taps fun _ _ h => h.widthsOk)
    (State.tapsOk_iff.1 hs) e)

/-! ### The sequencer (O52) -/

theorem State.sequencerOk_iff {s : State} : s.sequencerOk = true ↔ s.mmio.count ≤ 32 ∧
    (s.mmio.busy = true →
      1 ≤ s.mmio.length.toNat ∧ s.mmio.length.toNat ≤ 32 ∧ s.mmio.count ≤ s.mmio.length.toNat) := by
  cases hb : s.mmio.busy <;> simp [State.sequencerOk, hb, and_assoc]

/-- While busy only samples and the end of the chunk move the sequencer; a start begins with a legal LENGTH. -/
theorem Move.sequencerOk {b : Bool} {s t : State} (m : Move b s t) (hs : s.sequencerOk = true) :
    t.sequencerOk = true := by
  have hs' := State.sequencerOk_iff.1 hs
  obtain ⟨hcount, hbusy⟩ := hs'
  rw [State.sequencerOk_iff]
  cases m
  case sample w hb hc =>
    obtain ⟨h1, h2, _⟩ := hbusy hb
    exact ⟨Nat.le_trans hc h2, fun _ => ⟨h1, h2, hc⟩⟩
  case finish => exact ⟨hcount, nofun⟩
  case operands length tms tdi hb => exact ⟨hcount, fun h => absurd (hb.symm.trans h) nofun⟩
  case start hl => exact ⟨Nat.zero_le _, fun _ => ⟨hl.1, hl.2, Nat.zero_le _⟩⟩
  case opened h hh => exact ⟨Nat.zero_le _, nofun⟩
  all_goals exact ⟨hcount, hbusy⟩

/-- Settles O52. -/
theorem sequencerCounterKept : Obligations.SequencerCounterKept := by
  intro s t hs e
  exact step_keeps_of_move (fun _ _ m => m.sequencerOk) hs e

/-! ### The operating point (O55) -/

theorem State.legalPoint_iff {s : State} : s.legalPoint = true ↔
    s.mmio.clkdiv.toNat ≤ s.cfg.divMax ∧ s.mmio.delay.toNat ≤ s.cfg.delayMax := by
  simp [State.legalPoint]

/-- A free value of a bounded register is legal (R26, R27, R47). -/
theorem freeUpTo_toNat_le (draw place max : Nat) : (BitVec.ofNat 32 (freeUpTo draw place max)).toNat ≤ max := by
  rw [BitVec.toNat_ofNat]
  exact (Nat.mod_le _ _).trans (Nat.lt_succ_iff.1 (Nat.mod_lt _ (Nat.succ_pos max)))

theorem Move.legalPoint {b : Bool} {s t : State} (m : Move b s t) (hs : s.legalPoint = true) :
    t.legalPoint = true := by
  have hs' := State.legalPoint_iff.1 hs
  obtain ⟨hdiv, hdelay⟩ := hs'
  rw [State.legalPoint_iff]
  cases m
  case clkdiv v hb hv => exact ⟨hv, hdelay⟩
  case delay v hb hv => exact ⟨hdiv, hv⟩
  case opened h hh => exact ⟨freeUpTo_toNat_le _ _ _, freeUpTo_toNat_le _ _ _⟩
  all_goals exact ⟨hdiv, hdelay⟩

/-- Settles O55. -/
theorem legalDivisorAndDelayKept : Obligations.LegalDivisorAndDelayKept := by
  intro s t hs e
  exact step_keeps_of_move (fun _ _ m => m.legalPoint) hs e

/-! ### Identity, handle and parameters (O54) -/

theorem Tap.latch_par (t : Tap) (code : Bits) : (t.latch code).par = t.par := by
  unfold Tap.latch; split <;> rfl

theorem Tap.Move.par {t t' : Tap} (m : t.Move t') : t'.par = t.par := by
  cases m with
  | cycle tms tdi free h => exact Tap.cycle_par h
  | lose free => rfl
  | latchIdcode => exact t.latch_par _
  | latchBypass => exact t.latch_par _

/-- The target's constants never change (R40, R46, R140). -/
theorem Target.Move.constants {x y : Target} (m : x.Move y) : y.constants = x.constants := by
  cases m with
  | loopback f => rfl
  | chain h =>
    have e : ∀ ts ts' : List Tap, List.Forall₂ Tap.Move ts ts' → ts'.map Tap.par = ts.map Tap.par := by
      intro ts ts' h
      induction h with
      | nil => rfl
      | cons hm _ ih => rw [List.map_cons, List.map_cons, hm.par, ih]
    simp only [Target.constants, e _ _ h]

/-- Losing the target keeps its constants (R46, R48). -/
theorem Target.lose_constants (draw : Nat) (x : Target) : (x.lose draw).constants = x.constants :=
  (Target.Move.lose draw x).constants

/-- What outlives every operation from `s` on: an identity stands with a handle, and what `s` has of the two and its
parameters are as in `s` (R42, R43, R46). -/
structure Lasting (s t : State) : Prop where
  identityOk : t.identityOk = true
  parameters : t.parameters = s.parameters
  identity : ∀ d, s.identity = some d → t.identity = some d
  handle : ∀ h, s.handle = some h → t.handle = some h

theorem State.handle_isSome_of_identity {s : State} (h : s.identityOk = true) (hi : s.identity ≠ none) :
    s.handle ≠ none := by
  simpa [State.identityOk, hi, Option.isSome_iff_ne_none] using h

theorem Move.lasting {b : Bool} {s t u : State} (m : Move b t u) (h : Lasting s t) : Lasting s u := by
  obtain ⟨ok, par, ident, handle⟩ := h
  cases m
  case target v hv =>
    have e : (t.setTarget v).parameters = t.parameters := by simp [State.parameters, hv.constants]
    exact ⟨ok, e.trans par, ident, handle⟩
  case identify d hi hh =>
    have hok : (t.setIdentity (some d)).identityOk = true := by simp [State.identityOk, hh]
    refine ⟨hok, par, fun d' hd => ?_, handle⟩
    have := ident d' hd
    rw [hi] at this
    cases this
  case opened h hh =>
    have e : (t.opened h).parameters = t.parameters := by
      simp [State.parameters, State.opened, Target.lose_constants]
    refine ⟨rfl, e.trans par, fun d hd => ?_, fun h' hs => ?_⟩
    · exact absurd hh (State.handle_isSome_of_identity ok (by simp [ident d hd]))
    · have := handle h' hs
      rw [hh] at this
      cases this
  all_goals exact ⟨ok, par, ident, handle⟩

/-- Settles O54. -/
theorem identityAndHandleKept : Obligations.IdentityAndHandleKept := by
  intro s t hs e
  obtain ⟨ok, par, ident, handle⟩ :=
    step_keeps_of_move (P := Lasting s) (fun _ _ m => m.lasting) ⟨hs, rfl, fun _ => id, fun _ => id⟩ e
  exact ⟨ok, par, ident, handle⟩

/-! ### The handle (O2) -/

theorem Move.handle {b : Bool} {h : Handle} {s t : State} (m : Move b s t) (hs : s.handle = some h) :
    t.handle = some h := by
  cases m
  case opened h' hh => rw [hh] at hs; cases hs
  all_goals exact hs

theorem exec_handle {i : Instr} {s t : State} {h : Handle} (hs : s.handle = some h) (e : exec i s = .next t) :
    t.handle = some h :=
  (exec_moves i e).keep (fun _ _ m => m.handle) hs

section
variable {s : State} (h : s.handle = none)
include h

theorem needHandle_of_none : needHandle s = .refused .notOpen := by simp [needHandle, h]
theorem needMmio_of_none : needMmio s = .refused .notOpen := by simp [needMmio, h]
theorem needUsb_of_none : needUsb s = .refused .notOpen := by simp [needUsb, h]
theorem needTarget_of_none : needTarget s = .refused .notOpen := by simp [needTarget, needHandle_of_none h]
theorem shift_of_none (n : Int) (buf : List Byte) : shift n buf s = .refused .notOpen := by
  simp [shift, needHandle_of_none h]

/-- Every operation but T.OPEN first asks for a handle (R43). -/
theorem exec_of_none (i : Instr) (hi : ∀ p, i ≠ .tOpen p) : exec i s = .refused .notOpen := by
  cases i
  case tOpen p => exact absurd rfl (hi p)
  case tShift n buf => simp [exec, execTShift, shift_of_none h]
  case tSetClockDivisor v => simp [exec, execTSetClockDivisor, setClockDivisor, needHandle_of_none h]
  case tSetTimingParam v => simp [exec, execTSetTimingParam, setTimingParam, needHandle_of_none h]
  case jIdcode => simp [exec, execJIdcode, latchCode, needTarget_of_none h]
  case jBypass => simp [exec, execJBypass, latchCode, needTarget_of_none h]
  case mWrLength v => simp [exec, execMWrLength, mmioWrite, needMmio_of_none h]
  case mWrTms v => simp [exec, execMWrTms, mmioWrite, needMmio_of_none h]
  case mWrTdi v => simp [exec, execMWrTdi, mmioWrite, needMmio_of_none h]
  case mWrStart => simp [exec, execMWrStart, mmioStart, needMmio_of_none h]
  case mRdStatus => simp [exec, execMRdStatus, mmioStatus, needMmio_of_none h]
  case mRdTdo => simp [exec, execMRdTdo, mmioTdo, needMmio_of_none h]
  case mWrClkdiv v => simp [exec, execMWrClkdiv, mmioWriteIn, needMmio_of_none h]
  case mWrDelay v => simp [exec, execMWrDelay, mmioWriteIn, needMmio_of_none h]
  case uByteShift e d => simp [exec, execUByteShift, needUsb_of_none h]
  case uBitShift e r d => simp [exec, execUBitShift, needUsb_of_none h]
  case uTmsShift e r d => simp [exec, execUTmsShift, needUsb_of_none h]
  case uSetDivisor v => simp [exec, execUSetDivisor, needUsb_of_none h]
  case uFlush => simp [exec, execUFlush, needUsb_of_none h]
  case pProbeIdcode => simp [exec, execPProbeIdcode, probeIdcode, needHandle_of_none h]
  case pScanChain => simp [exec, execPScanChain, scanChain, shiftPairs, shift_of_none h]
  case pDetect => simp [exec, execPDetect, detect, needHandle_of_none h]
  case pProbeBypass v => simp [exec, execPProbeBypass, probeBypassVec, needHandle_of_none h]
  case pProbeBypassVec vs => simp [exec, execPProbeBypassVec, probeBypassVec, needHandle_of_none h]
  all_goals
    have hj : ∀ x tms tdi, tckIn x tms tdi s = .refused .notOpen := by simp [tckIn, needTarget_of_none h]
    exact congrArg (Res.out · giveTdo) (hj _ _ _)

end

/-- Settles O2. -/
theorem handleOwnedForLife : Obligations.HandleOwnedForLife := by
  refine ⟨rfl, fun i s h => exec_of_none h i, fun p s h hc => ?_, fun i s t h hs e => exec_handle hs e⟩
  have ho := openTransport_eq_ok.2 ⟨h, hc, rfl⟩
  refine ⟨giveDone () (s.opened (OpenParams.handle p)), ?_, rfl⟩
  simp only [exec, execTOpen, ho, Res.out_ok]

/-! ### Reset (O1, O56) -/

/-- Settles O1. -/
theorem resetPrecedesConstruction : Obligations.ResetPrecedesConstruction :=
  ⟨rfl, rfl, rfl, rfl, rfl, rfl, rfl, rfl, rfl, rfl⟩

/-- Settles O56. -/
theorem invariantsHoldAtReset : Obligations.InvariantsHoldAtReset :=
  ⟨by decide, by decide, by decide, by decide, by decide, by decide, Config.default_wellFormed⟩

/-! ### The step runs what the bytes decode to (O47) -/

/-- Bytes that decode to an operation are a call to issue, or one beyond the caller's limit (R139). -/
theorem fetchCall_of_decode {s : State} {i : Instr} {tail : List Byte} (h : decode s.cfg s.calls = .ok i tail) :
    fetchCall s = if Config.accepts s.cfg i then .op i tail else .unissued tail := by
  unfold fetchCall
  cases hc : s.calls with
  | nil => rw [hc] at h; cases h
  | cons b bs =>
    rw [hc] at h
    simp only [decodeReadBack_of_decode h, h]

theorem hostTurn_of_decode {s : State} {i : Instr} {tail : List Byte} (h : decode s.cfg s.calls = .ok i tail) :
    hostTurn s = if Config.accepts s.cfg i then exec i (s.setCalls tail) else .next (s.setCalls tail) := by
  unfold hostTurn
  rw [fetchCall_of_decode h]
  cases Config.accepts s.cfg i <;> rfl

theorem step_of_ready {s s1 : State} (h : s.host.phase = .ready) (hd : deviceTurn s = .ok () s1) :
    step s = hostTurn s1 := by
  simp only [step, h, hd]

/-- With the sequencer idle and no bytes in the stream the devices have nothing to do. -/
theorem deviceTurn_of_idle {s : State} (hb : s.mmio.busy = false) (hq : s.usb.cmdq = []) : deviceTurn s = .ok () s := by
  have he : engineTurn s = .ok () s := by simp [engineTurn, hb]
  unfold deviceTurn
  rw [he, Res.bind_ok]
  split
  · rw [hq]; rfl
  · rfl

/-- Settles O47. -/
theorem stepRunsTheDecodedOperation : Obligations.StepRunsTheDecodedOperation :=
  ⟨fun _ _ _ _ hp hd h => (step_of_ready hp hd).trans (hostTurn_of_decode h), fun _ => deviceTurn_of_idle⟩

end Sys2Proof.Machine
end

section
/-! ## Bits, buffers and shift registers

Every register, byte and buffer of the model read bit by bit: `bitAt` and `getLsbD` on the left, a list of bits in wire
order on the right. -/

namespace Sys2Proof.Machine

theorem bitsOfNat_eq_map (w x : Nat) : bitsOfNat w x = (List.range w).map x.testBit := by
  induction w generalizing x with
  | zero => rfl
  | succ w ih =>
    have e : ∀ i, (x / 2).testBit i = x.testBit (i + 1) := fun i => (Nat.testBit_succ x i).symm
    simp [bitsOfNat, ih, List.range_succ_eq_map, Function.comp_def, e]

theorem byteBits_eq_map (b : Byte) : byteBits b = (List.range 8).map b.getLsbD := by
  simp [byteBits, bitsOfNat_eq_map, BitVec.testBit_toNat]

@[simp] theorem byteBits_length (b : Byte) : (byteBits b).length = 8 := bitsOfNat_length 8 _

theorem natOfBits_testBit (bs : Bits) (i : Nat) : (natOfBits bs).testBit i = bs.getD i false := by
  induction bs generalizing i with
  | nil => simp [natOfBits]
  | cons b bs ih =>
    cases i with
    | zero => cases b <;> simp [natOfBits, Nat.testBit_zero]
    | succ i =>
      have e : (b.toNat + 2 * natOfBits bs) / 2 = natOfBits bs := by have := b.toNat_lt; omega
      rw [natOfBits, Nat.testBit_succ, e, ih]
      rfl

theorem byteOfBits_getLsbD (bs : Bits) (i : Nat) :
    (byteOfBits bs).getLsbD i = (decide (i < 8) && bs.getD i false) := by
  rw [byteOfBits, BitVec.getLsbD_ofNat, natOfBits_testBit]

theorem natOfBytes_testBit (bs : List Byte) (i : Nat) :
    (natOfBytes bs).testBit i = (bs.getD (i / 8) 0).getLsbD (i % 8) := by
  induction bs generalizing i with
  | nil => simp [natOfBytes]
  | cons b bs ih =>
    have e : natOfBytes (b :: bs) = 2 ^ 8 * natOfBytes bs + b.toNat := by rw [natOfBytes]; omega
    rw [e, Nat.testBit_two_pow_mul_add _ b.isLt]
    by_cases hi : i < 8
    · rw [if_pos hi, Nat.div_eq_of_lt hi, Nat.mod_eq_of_lt hi, BitVec.testBit_toNat]
      rfl
    · have h1 : i / 8 = (i - 8) / 8 + 1 := by omega
      have h2 : i % 8 = (i - 8) % 8 := by omega
      rw [if_neg hi, ih, h1, h2]
      rfl

/-- A chunk word holds the buffer's bits from the chunk's first on (R61, R193). -/
theorem chunkWord_getLsbD {buf : List Byte} {at_ nb k : Nat} (hk : k < 8 * nb) (hw : k < 32) :
    (chunkWord buf at_ nb).getLsbD k = bitAt buf (8 * at_ + k) := by
  have h1 : (8 * at_ + k) / 8 = at_ + k / 8 := by omega
  have h2 : (8 * at_ + k) % 8 = k % 8 := by omega
  have h3 : k / 8 < nb := by omega
  rw [chunkWord, BitVec.getLsbD_ofNat, natOfBytes_testBit, bitAt, h1, h2]
  simp [hw, List.getD_eq_getElem?_getD, h3]

theorem bitAt_of_lt {buf : List Byte} {i j : Nat} (hj : j < 8) :
    bitAt buf (8 * i + j) = (buf.getD i 0).getLsbD j := by
  have h1 : (8 * i + j) / 8 = i := by omega
  have h2 : (8 * i + j) % 8 = j := by omega
  rw [bitAt, h1, h2]

/-! ### Registers that shift down -/

/-- A register that takes each bit in at the top and moves down holds the bits at its top, in the order they came, and
below them what it held, moved down (R191, R223). -/
theorem foldl_push_getLsbD {w : Nat} {push : Bool → BitVec w → BitVec w}
    (h : ∀ b r j, (push b r).getLsbD j = if j + 1 = w then b else r.getLsbD (j + 1)) (bits : Bits) (r : BitVec w)
    {j : Nat} (hj : j < w) (hl : bits.length ≤ w) :
    (bits.foldl (fun r b => push b r) r).getLsbD j =
      if w ≤ j + bits.length then bits.getD (j + bits.length - w) false else r.getLsbD (j + bits.length) := by
  induction bits generalizing r with
  | nil => simp [Nat.not_le.2 hj]
  | cons b bs ih =>
    simp only [List.length_cons] at hl
    rw [List.foldl_cons, ih (push b r) (by omega), List.length_cons]
    by_cases h1 : w ≤ j + bs.length
    · rw [if_pos h1, if_pos (by omega),
        show j + (bs.length + 1) - w = (j + bs.length - w) + 1 by omega]
      rfl
    · rw [if_neg h1, h]
      by_cases h2 : j + bs.length + 1 = w
      · rw [if_pos h2, if_pos (by omega), show j + (bs.length + 1) - w = 0 by omega]
        rfl
      · rw [if_neg h2, if_neg (by omega)]
        rfl

theorem pushByte_getLsbD (b : Bool) (r : Byte) (j : Nat) :
    (pushByte b r).getLsbD j = if j + 1 = 8 then b else r.getLsbD (j + 1) := by
  unfold pushByte
  by_cases h : j + 1 = 8
  · obtain rfl : j = 7 := by omega
    cases b <;> simp [BitVec.getLsbD_of_ge]
  · rw [if_neg h, BitVec.getLsbD_or, BitVec.getLsbD_ushiftRight, Nat.add_comm 1 j]
    have e : ∀ k, k ≠ 7 → (0x80#8).getLsbD k = false := by
      intro k hk
      by_cases hk8 : k < 8
      · have : ∀ k < 8, k ≠ 7 → (0x80#8).getLsbD k = false := by decide
        exact this k hk8 hk
      · exact BitVec.getLsbD_of_ge _ _ (by omega)
    cases b <;> simp [e j (by omega)]

theorem pushWord_getLsbD (b : Bool) (r : Word) (j : Nat) :
    (pushWord b r).getLsbD j = if j + 1 = 32 then b else r.getLsbD (j + 1) := by
  unfold pushWord
  by_cases h : j + 1 = 32
  · obtain rfl : j = 31 := by omega
    cases b <;> simp [BitVec.getLsbD_of_ge]
  · rw [if_neg h, BitVec.getLsbD_or, BitVec.getLsbD_ushiftRight, Nat.add_comm 1 j]
    have e : ∀ k, k ≠ 31 → (0x80000000#32).getLsbD k = false := by
      intro k hk
      by_cases hk8 : k < 32
      · have : ∀ k < 32, k ≠ 31 → (0x80000000#32).getLsbD k = false := by decide
        exact this k hk8 hk
      · exact BitVec.getLsbD_of_ge _ _ (by omega)
    cases b <;> simp [e j (by omega)]

/-- The capture register after some samples, each entering at bit 31 (R191). -/
def pushWords (w : Word) (bits : Bits) : Word := bits.foldl (fun r b => pushWord b r) w

/-- A capture of `bits` moved down to bit 0 (R197, R242). -/
theorem pushWords_align_getLsbD (w : Word) {bits : Bits} (hl : bits.length ≤ 32) (j : Nat) :
    (alignCapture (pushWords w bits) bits.length).getLsbD j = bits.getD j false := by
  have e : ∀ k, 32 - bits.length ≤ k → k < 32 → (pushWords w bits).getLsbD k = bits.getD (k + bits.length - 32) false :=
    fun k h1 h2 => by rw [pushWords, foldl_push_getLsbD pushWord_getLsbD _ _ h2 hl, if_pos (by omega)]
  have past : 32 ≤ j + (32 - bits.length) → bits.getD j false = false := fun h =>
    List.getD_eq_default _ _ (by omega)
  by_cases hj : j + (32 - bits.length) < 32
  · unfold alignCapture
    split
    · rw [BitVec.getLsbD_ushiftRight, e _ (by omega) (by omega)]
      congr 1
      omega
    · rw [e _ (by omega) (by omega)]
      congr 1
      omega
  · rw [past (by omega)]
    unfold alignCapture
    split
    · rw [BitVec.getLsbD_ushiftRight, BitVec.getLsbD_of_ge _ _ (by omega)]
    · rw [BitVec.getLsbD_of_ge _ _ (by omega)]

/-- The same for the adapter's response byte of a few samples (R223, R242). -/
theorem pushBits_align_getLsbD (rb : Byte) {bits : Bits} (hl : bits.length ≤ 8) (j : Nat) :
    (pushBits rb bits >>> (8 - bits.length)).getLsbD j = bits.getD j false := by
  rw [BitVec.getLsbD_ushiftRight]
  by_cases hj : 8 - bits.length + j < 8
  · rw [pushBits, foldl_push_getLsbD pushByte_getLsbD _ _ hj hl, if_pos (by omega)]
    congr 1
    omega
  · rw [BitVec.getLsbD_of_ge _ _ (by omega)]
    exact (List.getD_eq_default _ _ (by omega)).symm

/-! ### Capture buffers -/

/-- A capture buffer of a shift of `n` bits that holds the bits captured so far, zeros after them (R12, R61). -/
def Captured (n : Nat) (buf : List Byte) (bits : Bits) : Prop :=
  buf.length = bytesFor n ∧ ∀ i, bitAt buf i = bits.getD i false

theorem captured_nil (n : Nat) : Captured n (List.replicate (bytesFor n) 0) [] := by
  refine ⟨List.length_replicate, fun i => ?_⟩
  by_cases h : i / 8 < bytesFor n <;> simp [bitAt, List.getD_eq_getElem?_getD, h]

/-- A buffer is told by its bits. -/
theorem Captured.unique {n : Nat} {a b : List Byte} {bits : Bits} (ha : Captured n a bits) (hb : Captured n b bits) :
    a = b := by
  obtain ⟨la, ea⟩ := ha
  obtain ⟨lb, eb⟩ := hb
  refine List.ext_getElem (la.trans lb.symm) fun i h1 h2 => BitVec.eq_of_getLsbD_eq fun j hj => ?_
  have e := (ea (8 * i + j)).trans (eb (8 * i + j)).symm
  rw [bitAt_of_lt hj, bitAt_of_lt hj] at e
  simpa [List.getD_eq_getElem?_getD, h1, h2] using e

/-- What R12 packs is a full capture. -/
theorem captured_packBits (bits : Bits) : Captured bits.length (packBits bits) bits := by
  refine ⟨by simp [packBits], fun i => ?_⟩
  have hm : i % 8 < 8 := Nat.mod_lt _ (by omega)
  by_cases h : i / 8 < bytesFor bits.length
  · have e : (packBits bits).getD (i / 8) 0 = byteOfBits ((bits.drop (8 * (i / 8))).take 8) := by
      simp [packBits, List.getD_eq_getElem?_getD, h]
    rw [bitAt, e, byteOfBits_getLsbD]
    simp [List.getD_eq_getElem?_getD, hm, Nat.div_add_mod]
  · have hi : bits.length ≤ i := by unfold bytesFor at h; omega
    simp [bitAt, packBits, List.getD_eq_getElem?_getD, h, hi]

theorem Captured.eq_packBits {n : Nat} {buf : List Byte} {bits : Bits} (h : Captured n buf bits)
    (hl : bits.length = n) : buf = packBits bits := by
  subst hl
  exact h.unique (captured_packBits bits)

end Sys2Proof.Machine
end

section
/-! ## Cycles in a row

The `(TMS, TDI)` pairs of a vector, taken a few at a time, and the cycles of one state clocked from another. -/

namespace Sys2Proof.Machine

@[simp] theorem vectorOf_length (n : Nat) (tms tdi : List Byte) : (vectorOf n tms tdi).length = n := by
  simp [vectorOf]

/-- The next `k` pairs of a vector (R133). -/
theorem vectorOf_take_add {n p k : Nat} (tms tdi : List Byte) (h : p + k ≤ n) :
    (vectorOf n tms tdi).take (p + k) =
      (vectorOf n tms tdi).take p ++ (List.range k).map fun j => (bitAt tms (p + j), bitAt tdi (p + j)) := by
  have hp : p ≤ n := by omega
  simp only [vectorOf, ← List.map_take, List.take_range, Nat.min_eq_left h, Nat.min_eq_left hp, List.range_add,
    List.map_append, List.map_map]
  rfl

/-- Cycles that go on in two parts. -/
theorem clockAll_append_ok {pt : Nat × Nat} {v w : List (Bool × Bool)} {s u : State} {bits : Bits}
    (h : clockAll pt (v ++ w) s = .ok bits u) :
    ∃ a t b, clockAll pt v s = .ok a t ∧ clockAll pt w t = .ok b u ∧ bits = a ++ b := by
  rw [clockAll_append] at h
  obtain ⟨a, t, ha, h⟩ := Res.bind_eq_ok.1 h
  obtain ⟨b, u', hb, h⟩ := Res.bind_eq_ok.1 h
  cases h
  exact ⟨a, t, b, ha, hb, rfl⟩

theorem clockAll_append_of_ok {pt : Nat × Nat} {v w : List (Bool × Bool)} {s t u : State} {a b : Bits}
    (ha : clockAll pt v s = .ok a t) (hb : clockAll pt w t = .ok b u) :
    clockAll pt (v ++ w) s = .ok (a ++ b) u := by
  rw [clockAll_append, ha, Res.bind_ok, hb, Res.bind_ok]

theorem clockAll_singleton (pt : Nat × Nat) (m d : Bool) (s : State) :
    clockAll pt [(m, d)] s = (clock pt m d s).bind fun b t => .ok [b] t := by
  simp only [clockAll, Res.bind_ok]

section
variable {pt : Nat × Nat} {s : State} (tms tdi : Bool)

/-- At an invalid point a cycle samples a free bit and loses the target (R48). -/
theorem clock_of_invalid (h : s.env.isValid pt = false) : clock pt tms tdi s =
    .ok (Config.freeBit s.draws 0) ((s.setDraws (s.draws + 1)).setTarget (s.target.lose s.draws)) := by
  simp [clock, h]

/-- The loopback double answers its function (R140). -/
theorem clock_of_loopback (h : s.env.isValid pt = true) {f : LoopFn} (ht : s.target = .loopback f) :
    clock pt tms tdi s = .ok (f.eval tms tdi) (s.setDraws (s.draws + 1)) := by
  simp [clock, h, ht]

/-- A chain takes one cycle (R173), unless a TAP of it refuses the cycle (R172). -/
theorem clock_of_chain (h : s.env.isValid pt = true) {ts ts' : List Tap} {o : Option Bool} (ht : s.target = .chain ts)
    (hc : chainCycle s.draws tms 0 tdi ts = some (ts', o)) : clock pt tms tdi s =
      .ok (o.getD (Config.freeBit s.draws 0)) ((s.setDraws (s.draws + 1)).setTarget (.chain ts')) := by
  simp [clock, h, ht, hc]

theorem clock_of_chain_refused (h : s.env.isValid pt = true) {ts : List Tap} (ht : s.target = .chain ts)
    (hc : chainCycle s.draws tms 0 tdi ts = none) : clock pt tms tdi s = .refused .reservedTapInstruction := by
  simp [clock, h, ht, hc]

end

/-- Two states whose next cycles at the points `pt` and `pt'` are the same: as valid a point, the same target, the same
free values. -/
structure SameWire (pt : Nat × Nat) (s : State) (pt' : Nat × Nat) (w : State) : Prop where
  valid : w.env.isValid pt' = s.env.isValid pt
  target : w.target = s.target
  draws : w.draws = s.draws

/-- A cycle samples the same from both, and leaves the same target. -/
theorem SameWire.clock {pt pt' : Nat × Nat} {s w u : State} {tms tdi b : Bool} (h : SameWire pt s pt' w)
    (e : clock pt tms tdi s = .ok b u) : clock pt' tms tdi w = .ok b ((w.setDraws u.draws).setTarget u.target) := by
  obtain ⟨hv, ht, hd⟩ := h
  cases hvs : s.env.isValid pt with
  | false =>
    rw [clock_of_invalid tms tdi hvs] at e
    cases e
    rw [clock_of_invalid tms tdi (hv.trans hvs), hd, ht]
    rfl
  | true =>
    cases hts : s.target with
    | loopback f =>
      rw [clock_of_loopback tms tdi hvs hts] at e
      cases e
      rw [clock_of_loopback tms tdi (hv.trans hvs) (ht.trans hts), State.setDraws_target, ← ht, hd]
      rfl
    | chain ts =>
      cases hc : chainCycle s.draws tms 0 tdi ts with
      | none => rw [clock_of_chain_refused tms tdi hvs hts hc] at e; cases e
      | some p =>
        rw [clock_of_chain tms tdi hvs hts hc] at e
        cases e
        rw [clock_of_chain tms tdi (hv.trans hvs) (ht.trans hts) (hd ▸ hc), hd]
        rfl

/-- After it the wires are the same again. -/
theorem SameWire.after {pt pt' : Nat × Nat} {s w u : State} {tms tdi b : Bool} (h : SameWire pt s pt' w)
    (e : Machine.clock pt tms tdi s = .ok b u) : SameWire pt u pt' ((w.setDraws u.draws).setTarget u.target) := by
  have he : u.env = s.env := by rw [clock_eq_ok e]; rfl
  exact ⟨by simpa [he] using h.valid, rfl, rfl⟩

/-- Cycles do the same from a state whose wires are the same. -/
theorem SameWire.clockAll {pt pt' : Nat × Nat} {v : List (Bool × Bool)} {s w u : State} {bits : Bits}
    (h : SameWire pt s pt' w) (e : clockAll pt v s = .ok bits u) :
    clockAll pt' v w = .ok bits ((w.setDraws u.draws).setTarget u.target) := by
  induction v generalizing s w bits with
  | nil =>
    cases e
    rw [← h.target, ← h.draws]
    rfl
  | cons p v ih =>
    obtain ⟨b, s1, h1, h2⟩ := Res.bind_eq_ok.1 (show _ = _ from e)
    obtain ⟨bs, s2, h3, h4⟩ := Res.bind_eq_ok.1 h2
    cases h4
    rw [Machine.clockAll, h.clock h1, Res.bind_ok, ih (h.after h1) h3]
    rfl

/-- Cycles do not look at the adapter. -/
theorem clock_setUsb (pt : Nat × Nat) (tms tdi : Bool) (s : State) (x : Usb) :
    clock pt tms tdi (s.setUsb x) = (clock pt tms tdi s).bind fun b t => .ok b (t.setUsb x) := by
  cases hv : s.env.isValid pt with
  | false =>
    rw [clock_of_invalid tms tdi hv, clock_of_invalid tms tdi (s := s.setUsb x) hv]
    rfl
  | true =>
    cases ht : s.target with
    | loopback f =>
      rw [clock_of_loopback tms tdi hv ht, clock_of_loopback tms tdi (s := s.setUsb x) hv ht]
      rfl
    | chain ts =>
      cases hc : chainCycle s.draws tms 0 tdi ts with
      | none =>
        rw [clock_of_chain_refused tms tdi hv ht hc, clock_of_chain_refused tms tdi (s := s.setUsb x) hv ht hc]
        rfl
      | some p =>
        rw [clock_of_chain tms tdi hv ht hc, clock_of_chain tms tdi (s := s.setUsb x) hv ht hc]
        rfl

theorem clockAll_setUsb (pt : Nat × Nat) (v : List (Bool × Bool)) (s : State) (x : Usb) :
    clockAll pt v (s.setUsb x) = (clockAll pt v s).bind fun b t => .ok b (t.setUsb x) := by
  induction v generalizing s with
  | nil => rfl
  | cons p v ih =>
    simp only [clockAll, clock_setUsb, Res.bind_assoc, Res.bind_ok, ih]

end Sys2Proof.Machine
end

section
/-! ## The command stream

A command that the assembler writes is read back by the adapter (R97 to R102), for all parameters that make sense. -/

namespace Sys2Proof

/-- The seven command bytes are pairwise distinct (R102). -/
theorem Config.commandBytes_pairwise {c : Config} (h : c.wellFormed = true) :
    c.commandBytes.Pairwise fun a b => a ≠ b ∧ b ≠ a := by
  simp only [Config.wellFormed, Bool.and_eq_true, decide_eq_true_eq] at h
  have hn : c.commandBytes.Nodup := by tauto
  exact hn.imp fun h => ⟨h, h.symm⟩

/-- A byte-shift of 1 to 65536 bytes reads back (R98). -/
theorem decodeCommand_byteShift {c : Config} (h : c.wellFormed = true) (e : Bool) {d : List Byte}
    (h1 : 1 ≤ d.length) (h2 : d.length ≤ 65536) (tail : List Byte) :
    decodeCommand c (encodeCommand c (.uByteShift e d) ++ tail) = .ok (.uByteShift e d) tail := by
  have hn := Config.commandBytes_pairwise h
  simp only [Config.commandBytes, List.pairwise_cons, List.forall_mem_cons] at hn
  have ht : takeBytes ((d.length - 1) % 256 + 256 * ((d.length - 1) / 256 % 256) + 1) (d ++ tail) = some (d, tail) :=
    takeBytes_append_of_length tail (by omega)
  cases e <;> simp [encodeCommand, decodeCommand, Config.opBytes, leBytes, ht, hn]

/-- A bit-shift of 1 to 8 bits reads back (R99). -/
theorem decodeCommand_bitShift {c : Config} (h : c.wellFormed = true) (e : Bool) {r : Nat} (h1 : 1 ≤ r) (h2 : r ≤ 8)
    (d : Byte) (tail : List Byte) :
    decodeCommand c (encodeCommand c (.uBitShift e r d) ++ tail) = .ok (.uBitShift e r d) tail := by
  have hn := Config.commandBytes_pairwise h
  simp only [Config.commandBytes, List.pairwise_cons, List.forall_mem_cons] at hn
  have hl : (r - 1) % 256 < 8 := by omega
  have hr : (r - 1) % 256 + 1 = r := by omega
  cases e <;> simp [encodeCommand, decodeCommand, Config.opBits, hl, hr, hn]

/-- A TMS-shift of 1 to 7 bits reads back (R100). -/
theorem decodeCommand_tmsShift {c : Config} (h : c.wellFormed = true) (e : Bool) {r : Nat} (h1 : 1 ≤ r) (h2 : r ≤ 7)
    (b : Byte) (tail : List Byte) :
    decodeCommand c (encodeCommand c (.uTmsShift e r b) ++ tail) = .ok (.uTmsShift e r b) tail := by
  have hn := Config.commandBytes_pairwise h
  simp only [Config.commandBytes, List.pairwise_cons, List.forall_mem_cons] at hn
  have hl : (r - 1) % 256 < 7 := by omega
  have hr : (r - 1) % 256 + 1 = r := by omega
  cases e <;> simp [encodeCommand, decodeCommand, Config.opTms, hl, hr, hn]

/-- A divisor command reads back (R101). -/
theorem decodeCommand_setDivisor {c : Config} (h : c.wellFormed = true) (div : Half) (tail : List Byte) :
    decodeCommand c (encodeCommand c (.uSetDivisor div) ++ tail) = .ok (.uSetDivisor div) tail := by
  have hn := Config.commandBytes_pairwise h
  simp only [Config.commandBytes, List.pairwise_cons, List.forall_mem_cons] at hn
  have hd : BitVec.ofNat 16 (div.toNat % 256 + 256 * (div.toNat / 256 % 256)) = div := by
    apply BitVec.eq_of_toNat_eq
    rw [BitVec.toNat_ofNat]
    have := div.isLt
    omega
  simp [encodeCommand, decodeCommand, leBytes, hd, hn]

end Sys2Proof
end

section
/-! ## What the adapter does with a batch

A batch is a list of commands, each made of pieces with one response byte each. The adapter's run of a batch is the cycles
of its pieces in a row (`adapterRun_assembles`). -/

namespace Sys2Proof.Machine

/-- What the assembler sends for one response byte: a TMS-zero byte, the last TMS-zero bits, or one bit with its TMS
(R231 to R234). -/
inductive Piece where
  | byte (d : Byte)
  | bits (r : Nat) (d : Byte)
  | tms (m d : Bool)

/-- The cycles of a piece, the TMS level being held at `level` where the piece sets none (R222 to R226). -/
def Piece.cycles (level : Bool) : Piece → List (Bool × Bool)
  | .byte d => (byteBits d).map fun b => (level, b)
  | .bits r d => ((byteBits d).take r).map fun b => (level, b)
  | .tms m d => [(m, d)]

/-- The TMS level after a piece (R226). -/
def Piece.level (level : Bool) : Piece → Bool
  | .tms m _ => m
  | _ => level

/-- The response byte of a piece, which the receive register `rb` holds after it. -/
def Piece.response (rb : Byte) (bits : Bits) : Piece → Byte
  | .byte _ => byteOfBits bits
  | _ => pushBits rb bits

/-- How the response byte of a piece at bit `pos` is unpacked (R241). -/
def Piece.descriptor (pos : Nat) : Piece → Descriptor
  | .byte _ => .byteShift pos
  | .bits r _ => .bitShift pos r
  | .tms _ _ => .tmsShift pos

/-- How many cycles a piece takes. -/
def Piece.width (p : Piece) : Nat := (p.cycles false).length

@[simp] theorem Piece.cycles_length (p : Piece) (level : Bool) : (p.cycles level).length = p.width := by
  cases p <;> simp [Piece.width, Piece.cycles]

/-- The cycles of pieces in a row. -/
def cyclesOf : Bool → List Piece → List (Bool × Bool)
  | _, [] => []
  | level, p :: ps => p.cycles level ++ cyclesOf (p.level level) ps

/-- The TMS level after pieces in a row. -/
def levelAfter (level : Bool) (ps : List Piece) : Bool := ps.foldl Piece.level level

/-- The descriptors of pieces in a row from bit `pos` on. -/
def descriptors : Nat → List Piece → List Descriptor
  | _, [] => []
  | pos, p :: ps => p.descriptor pos :: descriptors (pos + p.width) ps

theorem cyclesOf_append (level : Bool) (ps qs : List Piece) :
    cyclesOf level (ps ++ qs) = cyclesOf level ps ++ cyclesOf (levelAfter level ps) qs := by
  induction ps generalizing level with
  | nil => rfl
  | cons p ps ih => simp [cyclesOf, ih, levelAfter]

theorem levelAfter_append (level : Bool) (ps qs : List Piece) :
    levelAfter level (ps ++ qs) = levelAfter (levelAfter level ps) qs := List.foldl_append

/-- The level makes no difference to how many cycles there are. -/
theorem cyclesOf_length (level level' : Bool) (ps : List Piece) :
    (cyclesOf level ps).length = (cyclesOf level' ps).length := by
  induction ps generalizing level level' with
  | nil => rfl
  | cons p ps ih => simp [cyclesOf, ih (p.level level) (p.level level')]

@[simp] theorem descriptors_length (pos : Nat) (ps : List Piece) : (descriptors pos ps).length = ps.length := by
  induction ps generalizing pos with
  | nil => rfl
  | cons p ps ih => simp [descriptors, ih]

theorem descriptors_append (pos : Nat) (level : Bool) (ps qs : List Piece) :
    descriptors pos (ps ++ qs) = descriptors pos ps ++ descriptors (pos + (cyclesOf level ps).length) qs := by
  induction ps generalizing pos level with
  | nil => rfl
  | cons p ps ih => simp [descriptors, cyclesOf, ih _ (p.level level), Nat.add_assoc]

/-! ### The adapter after pieces -/

/-- The adapter after one piece that sampled `bits`. -/
def Usb.served (a : Usb) (bits : Bits) (p : Piece) : Usb :=
  { a with tms := p.level a.tms, rb := p.response a.rb bits, rspq := a.rspq ++ [p.response a.rb bits] }

/-- The adapter after pieces that sampled `bits`. -/
def Usb.ran : Usb → List Piece → Bits → Usb
  | a, [], _ => a
  | a, p :: ps, bits => (a.served (bits.take p.width) p).ran ps (bits.drop p.width)

@[simp] theorem Usb.ran_tms (a : Usb) (ps : List Piece) (bits : Bits) : (a.ran ps bits).tms = levelAfter a.tms ps := by
  induction ps generalizing a bits with
  | nil => rfl
  | cons p ps ih => exact ih _ _

@[simp] theorem Usb.ran_cmdq (a : Usb) (ps : List Piece) (bits : Bits) : (a.ran ps bits).cmdq = a.cmdq := by
  induction ps generalizing a bits with
  | nil => rfl
  | cons p ps ih => exact ih _ _

@[simp] theorem Usb.ran_div (a : Usb) (ps : List Piece) (bits : Bits) : (a.ran ps bits).div = a.div := by
  induction ps generalizing a bits with
  | nil => rfl
  | cons p ps ih => exact ih _ _

/-- Pieces leave the command stream alone. -/
theorem Usb.ran_setCmdq (a : Usb) (ps : List Piece) (bits : Bits) (q : List Byte) :
    ({ a with cmdq := q } : Usb).ran ps bits = { a.ran ps bits with cmdq := q } := by
  induction ps generalizing a bits with
  | nil => rfl
  | cons p ps ih => exact ih (a.served (bits.take p.width) p) _

/-- The adapter runs one piece at sampling edge `e`. -/
def runPiece (e : Bool) (p : Piece) (s : State) : Res Unit :=
  (clockAll (s.usbPoint e) (p.cycles s.usb.tms) s).bind fun bits u => .ok () (u.setUsb (s.usb.served bits p))

/-- The adapter runs pieces in a row. -/
def runPieces (e : Bool) : List Piece → State → Res Unit
  | [], s => .ok () s
  | p :: ps, s => (runPiece e p s).bind fun _ t => runPieces e ps t

theorem runPieces_append (e : Bool) (ps qs : List Piece) (s : State) :
    runPieces e (ps ++ qs) s = (runPieces e ps s).bind fun _ t => runPieces e qs t := by
  induction ps generalizing s with
  | nil => rfl
  | cons p ps ih => simp [runPieces, Res.bind_assoc, ih]

theorem Res.bind_congr_ok {α β : Type} {x : Res α} {f g : α → State → Res β}
    (h : ∀ a t, x = .ok a t → f a t = g a t) : x.bind f = x.bind g := by
  cases x with
  | ok a t => exact h a t rfl
  | stuck t => rfl
  | fault e => rfl
  | refused r => rfl

theorem clockAll_usb {pt : Nat × Nat} {v : List (Bool × Bool)} {s u : State} {bits : Bits}
    (h : clockAll pt v s = .ok bits u) : u.usb = s.usb := by
  rw [(clockAll_eq_ok h).1]; rfl

/-- Pieces in a row are their cycles in a row, from an adapter `a` in place of the one of `s`. -/
theorem runPieces_setUsb (e : Bool) (ps : List Piece) (s : State) (a : Usb) :
    runPieces e ps (s.setUsb a) =
      (clockAll (a.div.toNat, e.toNat) (cyclesOf a.tms ps) s).bind fun bits u => .ok () (u.setUsb (a.ran ps bits)) := by
  induction ps generalizing s a with
  | nil => rfl
  | cons p ps ih =>
    have hp : (s.setUsb a).usbPoint e = (a.div.toNat, e.toNat) := rfl
    simp only [runPieces, runPiece, hp, State.setUsb_usb, clockAll_setUsb, cyclesOf, clockAll_append, Res.bind_assoc,
      Res.bind_ok]
    refine Res.bind_congr_ok fun bits u hu => ?_
    have hl : bits.length = p.width := by rw [(clockAll_eq_ok hu).2, Piece.cycles_length]
    have hs : (u.setUsb a).setUsb (a.served bits p) = u.setUsb (a.served bits p) := rfl
    rw [hs, ih]
    simp [Usb.served, Usb.ran, hl]

theorem runPieces_eq (e : Bool) (ps : List Piece) (s : State) :
    runPieces e ps s = (clockAll (s.usbPoint e) (cyclesOf s.usb.tms ps) s).bind fun bits u =>
      .ok () (u.setUsb (s.usb.ran ps bits)) := runPieces_setUsb e ps s s.usb

/-! ### Commands and their pieces -/

theorem adapterByte_eq (e : Bool) (d : Byte) (s : State) : adapterByte e d s = runPiece e (.byte d) s := by
  refine Res.bind_congr_ok fun bits u h => ?_
  rw [clockAll_usb h]
  rfl

theorem adapterByteShift_eq (e : Bool) (d : List Byte) (s : State) :
    adapterByteShift e d s = runPieces e (d.map .byte) s := by
  induction d generalizing s with
  | nil => rfl
  | cons x d ih => simp only [adapterByteShift, adapterByte_eq, ih, List.map_cons, runPieces]

theorem adapterBitShift_eq (e : Bool) (r : Nat) (d : Byte) (s : State) :
    adapterBitShift e r d s = runPiece e (.bits r d) s := by
  refine Res.bind_congr_ok fun bits u h => ?_
  rw [clockAll_usb h]
  rfl

theorem tmsShiftByte_getLsbD_zero (m d : Bool) : (tmsShiftByte m d).getLsbD 0 = m := by
  cases m <;> cases d <;> decide

theorem tmsShiftByte_getLsbD_seven (m d : Bool) : (tmsShiftByte m d).getLsbD 7 = d := by
  cases m <;> cases d <;> decide

/-- The one-bit TMS-shift, the only form the driver emits (R233). -/
theorem adapterTmsShift_eq (e m d : Bool) (s : State) :
    adapterTmsShift e 1 (tmsShiftByte m d) s = runPiece e (.tms m d) s := by
  have hc : ((byteBits (tmsShiftByte m d)).take 1).map (fun m' => (m', (tmsShiftByte m d).getLsbD 7)) = [(m, d)] := by
    have hb : (byteBits (tmsShiftByte m d)).take 1 = [(tmsShiftByte m d).getLsbD 0] := by rw [byteBits_eq_map]; rfl
    rw [hb, tmsShiftByte_getLsbD_zero, tmsShiftByte_getLsbD_seven]
    rfl
  unfold adapterTmsShift
  rw [hc]
  refine Res.bind_congr_ok fun bits u h => ?_
  rw [clockAll_usb h, Nat.sub_self, tmsShiftByte_getLsbD_zero]
  rfl

/-- The commands that the assembler emits, with their pieces (R230 to R234). -/
inductive Assembled (e : Bool) : Instr → List Piece → Prop where
  | bytes (d : List Byte) (h1 : 1 ≤ d.length) (h2 : d.length ≤ 65536) : Assembled e (.uByteShift e d) (d.map .byte)
  | bits (r : Nat) (d : Byte) (h1 : 1 ≤ r) (h2 : r ≤ 8) : Assembled e (.uBitShift e r d) [.bits r d]
  | tms (m d : Bool) : Assembled e (.uTmsShift e 1 (tmsShiftByte m d)) [.tms m d]

theorem runPieces_singleton (e : Bool) (p : Piece) (s : State) : runPieces e [p] s = runPiece e p s := by
  simp only [runPieces]; cases runPiece e p s <;> rfl

theorem Assembled.adapterExec {e : Bool} {i : Instr} {ps : List Piece} (h : Assembled e i ps) (s : State) :
    adapterExec i s = runPieces e ps s := by
  cases h with
  | bytes d h1 h2 => exact adapterByteShift_eq e d s
  | bits r d h1 h2 => exact (adapterBitShift_eq e r d s).trans (runPieces_singleton e _ s).symm
  | tms m d => exact (adapterTmsShift_eq e m d s).trans (runPieces_singleton e _ s).symm

theorem Assembled.decode {e : Bool} {i : Instr} {ps : List Piece} (h : Assembled e i ps) {c : Config}
    (hw : c.wellFormed = true) (tail : List Byte) : decodeCommand c (encodeCommand c i ++ tail) = .ok i tail := by
  cases h with
  | bytes d h1 h2 => exact decodeCommand_byteShift hw e h1 h2 tail
  | bits r d h1 h2 => exact decodeCommand_bitShift hw e h1 h2 d tail
  | tms m d => exact decodeCommand_tmsShift hw e (by omega) (by omega) _ tail

/-- A list of commands with all their pieces. -/
inductive Assembles (e : Bool) : List Instr → List Piece → Prop where
  | nil : Assembles e [] []
  | cons {i : Instr} {is : List Instr} {ps qs : List Piece} (h : Assembled e i ps) (hs : Assembles e is qs) :
      Assembles e (i :: is) (ps ++ qs)

theorem Assembles.snoc {e : Bool} {is : List Instr} {ps qs : List Piece} {i : Instr} (hs : Assembles e is ps)
    (h : Assembled e i qs) : Assembles e (is ++ [i]) (ps ++ qs) := by
  induction hs with
  | nil => simpa using Assembles.cons h .nil
  | cons h' _ ih => simpa using Assembles.cons h' ih

/-- A command has at least one byte. -/
theorem Assembles.length_le {e : Bool} {is : List Instr} {ps : List Piece} (h : Assembles e is ps) (c : Config) :
    is.length ≤ (is.flatMap (encodeCommand c)).length := by
  induction h with
  | nil => exact Nat.le_refl _
  | @cons i is ps qs h _ ih =>
    have : 1 ≤ (encodeCommand c i).length := by cases h <;> simp [encodeCommand]
    simp only [List.length_cons, List.flatMap_cons, List.length_append]
    omega

theorem adapterRun_of_empty (fuel : Nat) {s : State} (h : s.usb.cmdq = []) : adapterRun fuel s = .ok () s := by
  cases fuel with
  | zero => rfl
  | succ fuel => simp [adapterRun, h, decodeCommand]

/-- The adapter takes a whole batch off its stream, and runs its pieces (R71, R97). -/
theorem adapterRun_assembles {e : Bool} {is : List Instr} {ps : List Piece} (h : Assembles e is ps) {fuel : Nat}
    (hf : is.length ≤ fuel) {s : State} (hw : s.cfg.wellFormed = true)
    (hq : s.usb.cmdq = is.flatMap (encodeCommand s.cfg)) :
    adapterRun fuel s = runPieces e ps (s.setUsb { s.usb with cmdq := [] }) := by
  induction h generalizing fuel s with
  | nil =>
    have hq' : s.usb.cmdq = [] := hq
    have he : s.setUsb { s.usb with cmdq := [] } = s := by rw [← hq']; rfl
    rw [he, adapterRun_of_empty fuel hq', runPieces]
  | @cons i is ps qs h hs ih =>
    obtain ⟨fuel, rfl⟩ : ∃ k, fuel = k + 1 := ⟨fuel - 1, by simp at hf; omega⟩
    rw [List.flatMap_cons] at hq
    simp only [adapterRun, hq, h.decode hw]
    rw [h.adapterExec, runPieces_append, runPieces_setUsb, runPieces_setUsb]
    simp only [Res.bind_assoc, Res.bind_ok]
    refine Res.bind_congr_ok fun bits u hu => ?_
    have hc : u.cfg = s.cfg := by rw [(clockAll_eq_ok hu).1]; rfl
    rw [ih (by simpa using hf) (by simpa [hc] using hw) (by simp [hc])]
    simp only [State.setUsb_usb, Usb.ran_setCmdq]
    rfl

end Sys2Proof.Machine
end

section
/-! ## Unpacking the responses

The descriptors of a batch put the samples of its pieces at their places in the capture buffer (R242). -/

namespace Sys2Proof.Machine

/-- A piece that fills or ends a byte begins at one (R231, R232); a one-bit piece stands anywhere. -/
def Piece.AlignedAt (pos : Nat) : Piece → Prop
  | .byte _ => pos % 8 = 0
  | .bits r _ => pos % 8 = 0 ∧ 1 ≤ r ∧ r ≤ 8
  | .tms _ _ => True

/-- The pieces in a row from bit `pos` on are aligned. -/
def Aligned : Nat → List Piece → Prop
  | _, [] => True
  | pos, p :: ps => p.AlignedAt pos ∧ Aligned (pos + p.width) ps

theorem aligned_append (pos : Nat) (level : Bool) (ps qs : List Piece) :
    Aligned pos (ps ++ qs) ↔ Aligned pos ps ∧ Aligned (pos + (cyclesOf level ps).length) qs := by
  induction ps generalizing pos level with
  | nil => simp [Aligned, cyclesOf]
  | cons p ps ih => simp [Aligned, cyclesOf, ih _ (p.level level), and_assoc, Nat.add_assoc]

theorem bitAt_set (buf : List Byte) (k : Nat) (x : Byte) (i : Nat) :
    bitAt (buf.set k x) i = if i / 8 = k ∧ k < buf.length then x.getLsbD (i % 8) else bitAt buf i := by
  simp only [bitAt, List.getD_eq_getElem?_getD, List.getElem?_set]
  by_cases h1 : k = i / 8
  · by_cases h2 : k < buf.length
    · have h3 : i / 8 < buf.length := h1 ▸ h2
      simp [h1, h3]
    · have h3 : ¬ i / 8 < buf.length := h1 ▸ h2
      simp [h1, h3]
  · have h3 : ¬ i / 8 = k := fun h => h1 h.symm
    simp [h1, h3]

theorem getD_append_bits (a b : Bits) (i : Nat) :
    (a ++ b).getD i false = if i < a.length then a.getD i false else b.getD (i - a.length) false := by
  split
  · exact List.getD_append _ _ _ _ ‹_›
  · exact List.getD_append_right _ _ _ _ (Nat.le_of_not_lt ‹_›)

/-- A byte that holds the next samples, put at their place (R242). -/
theorem Captured.set_byte {n : Nat} {buf : List Byte} {bits new : Bits} {x : Byte} (h : Captured n buf bits)
    (ha : bits.length % 8 = 0) (hl : new.length ≤ 8) (h1 : 1 ≤ new.length) (hn : bits.length + new.length ≤ n)
    (hx : ∀ j < 8, x.getLsbD j = new.getD j false) : Captured n (buf.set (bits.length / 8) x) (bits ++ new) := by
  obtain ⟨hlen, hbits⟩ := h
  have hk : bits.length / 8 < buf.length := by rw [hlen, bytesFor]; omega
  refine ⟨by simpa using hlen, fun i => ?_⟩
  rw [bitAt_set, getD_append_bits]
  by_cases hi : i / 8 = bits.length / 8
  · rw [if_pos ⟨hi, hk⟩, hx _ (Nat.mod_lt _ (by omega)), if_neg (by omega)]
    congr 1
    omega
  · rw [if_neg (fun h => hi h.1), hbits]
    split
    · rfl
    · rw [List.getD_eq_default _ _ (by omega), List.getD_eq_default _ _ (by omega)]

theorem tmsBit_getLsbD (x : Byte) {k j : Nat} (hj : j < 8) :
    (((x >>> 7) &&& 1#8) <<< k).getLsbD j = (decide (j = k) && x.getLsbD 7) := by
  rw [BitVec.getLsbD_shiftLeft, BitVec.getLsbD_and, BitVec.getLsbD_one, BitVec.getLsbD_ushiftRight]
  by_cases h : j = k
  · subst h; simp [hj]
  · by_cases h' : j < k
    · simp [h, h']
    · have : ¬ j - k = 0 := by omega
      simp [h, this]

/-- One more sample, put into its bit (R242). -/
theorem Captured.or_bit {n : Nat} {buf : List Byte} {bits : Bits} {b : Bool} {x : Byte} (h : Captured n buf bits)
    (hn : bits.length + 1 ≤ n) (hx : x.getLsbD 7 = b) :
    Captured n (unpack (.tmsShift bits.length) x buf) (bits ++ [b]) := by
  obtain ⟨hlen, hbits⟩ := h
  have hk : bits.length / 8 < buf.length := by rw [hlen, bytesFor]; omega
  have hm : ∀ i, i % 8 < 8 := fun i => Nat.mod_lt _ (by omega)
  refine ⟨by simpa [unpack] using hlen, fun i => ?_⟩
  rw [unpack, bitAt_set, getD_append_bits]
  by_cases hi : i / 8 = bits.length / 8
  · rw [if_pos ⟨hi, hk⟩, BitVec.getLsbD_or, tmsBit_getLsbD x (hm _), ← hi]
    have hold := hbits i
    rw [bitAt] at hold
    rw [hold, hx]
    by_cases hlt : i < bits.length
    · have : ¬ i % 8 = bits.length % 8 := by omega
      simp [hlt, this]
    · rw [List.getD_eq_default _ _ (by omega)]
      by_cases heq : i = bits.length
      · simp [heq]
      · have : ¬ i % 8 = bits.length % 8 := by omega
        rw [if_neg hlt, List.getD_eq_default _ _ (by simp; omega)]
        simp [this]
  · rw [if_neg (fun h => hi h.1), hbits]
    split
    · rfl
    · rw [List.getD_eq_default _ _ (by omega), List.getD_eq_default _ _ (by simp; omega)]

/-- The response byte of a piece, unpacked by its descriptor, adds the piece's samples to the capture. -/
theorem Captured.unpack_piece {n : Nat} {buf : List Byte} {bits new : Bits} (h : Captured n buf bits) (p : Piece)
    (rb : Byte) (ha : p.AlignedAt bits.length) (hl : new.length = p.width) (hn : bits.length + p.width ≤ n) :
    Captured n (unpack (p.descriptor bits.length) (p.response rb new) buf) (bits ++ new) := by
  cases p with
  | byte d =>
    have hw : new.length = 8 := by simpa [Piece.width, Piece.cycles] using hl
    exact h.set_byte ha (by omega) (by omega) (by omega) fun j hj => by
      rw [Piece.response, byteOfBits_getLsbD]; simp [hj]
  | bits r d =>
    obtain ⟨hm, h1, h8⟩ := ha
    have hw : new.length = r := by simpa [Piece.width, Piece.cycles, h8] using hl
    refine h.set_byte hm (by omega) (by omega) (by omega) fun j _ => ?_
    rw [← hw]
    exact pushBits_align_getLsbD rb (by omega) j
  | tms m d =>
    obtain ⟨b, rfl⟩ := List.length_eq_one_iff.1 (show new.length = 1 from hl)
    exact h.or_bit hn (by simpa [Piece.response, pushBits] using pushByte_getLsbD b rb 7)

/-- The response bytes of pieces that sampled `bits`. -/
def responses : Byte → List Piece → Bits → List Byte
  | _, [], _ => []
  | rb, p :: ps, bits =>
    p.response rb (bits.take p.width) ::
      responses (p.response rb (bits.take p.width)) ps (bits.drop p.width)

theorem Usb.ran_rspq (a : Usb) (ps : List Piece) (bits : Bits) :
    (a.ran ps bits).rspq = a.rspq ++ responses a.rb ps bits := by
  induction ps generalizing a bits with
  | nil => simp [Usb.ran, responses]
  | cons p ps ih => simp [Usb.ran, responses, ih, Usb.served]

@[simp] theorem responses_length (rb : Byte) (ps : List Piece) (bits : Bits) :
    (responses rb ps bits).length = ps.length := by
  induction ps generalizing rb bits with
  | nil => rfl
  | cons p ps ih => simp [responses, ih]

/-- A replay moves the capture buffer and the descriptor cursor alone. -/
theorem replay_frame (ds : List Descriptor) (xs : List Byte) (h : HostSeq) :
    ∃ buf k, replay ds xs h = { h with tdoBuf := buf, descIdx := k } := by
  induction ds generalizing xs h with
  | nil => exact ⟨_, _, rfl⟩
  | cons d ds ih =>
    cases xs with
    | nil => exact ⟨_, _, rfl⟩
    | cons x xs =>
      obtain ⟨buf, k, e⟩ := ih xs { h with tdoBuf := unpack d x h.tdoBuf, descIdx := h.descIdx + 1 }
      exact ⟨buf, k, e⟩

/-- The replay of a batch adds the samples of all its pieces to the capture. -/
theorem replay_captured {n : Nat} (level : Bool) (ps : List Piece) {h : HostSeq} {bits new : Bits} (rb : Byte)
    (hc : Captured n h.tdoBuf bits) (ha : Aligned bits.length ps) (hl : new.length = (cyclesOf level ps).length)
    (hn : bits.length + new.length ≤ n) :
    Captured n (replay (descriptors bits.length ps) (responses rb ps new) h).tdoBuf (bits ++ new) := by
  induction ps generalizing h bits new rb level with
  | nil =>
    obtain rfl : new = [] := List.length_eq_zero_iff.1 hl
    simpa [descriptors, responses, replay] using hc
  | cons p ps ih =>
    obtain ⟨hp, hps⟩ := ha
    simp only [cyclesOf, List.length_append, Piece.cycles_length] at hl
    have ht : (new.take p.width).length = p.width := by rw [List.length_take]; omega
    have h1 := hc.unpack_piece p rb hp ht (by omega)
    have e : bits ++ new = (bits ++ new.take p.width) ++ new.drop p.width := by simp
    have hb : (bits ++ new.take p.width).length = bits.length + p.width := by rw [List.length_append, ht]
    rw [e]
    simp only [descriptors, responses, replay]
    rw [← hb] at hps ⊢
    exact ih (p.level level) _ h1 hps (by rw [List.length_drop]; omega) (by rw [hb, List.length_drop]; omega)

end Sys2Proof.Machine
end

section
/-! ## Transfers

What the host's USB transfers leave, with a condition `T` under which they do not fail. -/

namespace Sys2Proof.Machine

theorem usbAccept_leaves {T : Prop} {s : State} (h : T → false ∉ s.env.writes) :
    (usbAccept s).Leaves (¬T)
      (fun _ t => ∃ w, t = s.setEnv { s.env with writes := w } ∧ (T → false ∉ w)) fun _ => False := by
  unfold usbAccept
  split
  · exact ⟨s.env.writes, rfl, h⟩
  · rename_i rest hw
    exact ⟨rest, rfl, fun hT hm => h hT (by rw [hw]; exact .tail _ hm)⟩
  · rename_i rest hw
    exact fun hT => h hT (by rw [hw]; exact .head _)

/-- A read changes the response stream and the deliveries; it leaves the host stuck only where the bytes do not come. -/
theorem usbRead_post (ds : List Transfer) (k : Nat) (got : List Byte) (s : State) :
    (usbRead ds k got s).Post
      (fun _ t => ∃ q d, t = (s.setUsb { s.usb with rspq := q }).setEnv { s.env with delivery := d })
      (fun t => ∃ q d, t = ((s.setUsb { s.usb with rspq := q }).setEnv { s.env with delivery := d }).setHost
        { s.host with phase := .stuckRead }) := by
  induction ds generalizing k got s with
  | nil =>
    unfold usbRead
    split
    · exact ⟨s.usb.rspq.drop k, s.env.delivery, rfl⟩
    · exact ⟨s.usb.rspq, s.env.delivery, rfl⟩
  | cons d rest ih =>
    cases d with
    | error => trivial
    | bytes d =>
      unfold usbRead
      dsimp only
      split
      · exact ⟨_, _, rfl⟩
      · exact (ih _ _ _).mono (fun _ _ ⟨q, d, e⟩ => ⟨q, d, e⟩) fun _ ⟨q, d, e⟩ => ⟨q, d, e⟩

/-- A read of bytes that are there, whose transfers do not fail, brings them in order (R244). -/
theorem usbRead_of_alive {ds : List Transfer} {k : Nat} {got : List Byte} {s : State} (hd : s.env.delivery = ds)
    (he : .error ∉ ds) (ha : s.env.usbAlive = true) (hk : k ≤ s.usb.rspq.length) :
    ∃ d, .error ∉ d ∧ usbRead ds k got s = .ok (got ++ s.usb.rspq.take k)
      ((s.setUsb { s.usb with rspq := s.usb.rspq.drop k }).setEnv { s.env with delivery := d }) := by
  induction ds generalizing k got s with
  | nil =>
    refine ⟨[], he, ?_⟩
    rw [usbRead, if_pos ⟨ha, hk⟩, ← hd]
    rfl
  | cons d rest ih =>
    obtain ⟨hne, hrest⟩ := not_or.1 (mt List.mem_cons.2 he)
    cases d with
    | error => exact absurd rfl hne
    | bytes d =>
      rw [usbRead]
      have hl : (s.usb.rspq.take (min d k)).length = min d k := by rw [List.length_take]; omega
      simp only [hl]
      by_cases hdk : min d k = k
      · refine ⟨rest, hrest, ?_⟩
        rw [if_pos hdk, hdk]
      · rw [if_neg hdk]
        obtain ⟨d', hd', e⟩ := ih (k := k - min d k) (got := got ++ s.usb.rspq.take (min d k))
          (s := (s.setUsb { s.usb with rspq := s.usb.rspq.drop (min d k) }).setEnv { s.env with delivery := rest })
          rfl hrest ha (by simp; omega)
        refine ⟨d', hd', e.trans ?_⟩
        have h1 : s.usb.rspq.take (min d k) ++ (s.usb.rspq.drop (min d k)).take (k - min d k) = s.usb.rspq.take k := by
          rw [← List.take_add]; congr 1; omega
        have h2 : (s.usb.rspq.drop (min d k)).drop (k - min d k) = s.usb.rspq.drop k := by
          rw [List.drop_drop]; congr 1; omega
        simp only [State.setEnv_usb, State.setUsb_usb, List.append_assoc, h1, h2]
        rfl

theorem usbRead_leaves {T : Prop} {k : Nat} {s : State}
    (h : T → .error ∉ s.env.delivery ∧ s.env.usbAlive = true ∧ k ≤ s.usb.rspq.length) :
    (usbRead s.env.delivery k [] s).Leaves (¬T)
      (fun rx t => ∃ q d, t = (s.setUsb { s.usb with rspq := q }).setEnv { s.env with delivery := d } ∧
        (T → rx = s.usb.rspq.take k ∧ q = s.usb.rspq.drop k ∧ .error ∉ d))
      (fun t => ¬T ∧ ∃ q d, t = ((s.setUsb { s.usb with rspq := q }).setEnv { s.env with delivery := d }).setHost
        { s.host with phase := .stuckRead }) := by
  by_cases hT : T
  · obtain ⟨he, ha, hk⟩ := h hT
    obtain ⟨d, hd, e⟩ := usbRead_of_alive (got := []) rfl he ha hk
    rw [e]
    exact ⟨_, d, rfl, fun _ => ⟨rfl, rfl, hd⟩⟩
  · exact (usbRead_post _ _ _ _).mono (fun _ _ ⟨q, d, e⟩ => ⟨q, d, e, fun h => absurd h hT⟩) (fun _ e => ⟨hT, e⟩)
      fun _ => hT

/-- Cycles never leave the host stuck. -/
theorem clockAll_leaves {T : Prop} {pt : Nat × Nat} {v : List (Bool × Bool)} {s : State}
    (h : T → ∃ bits u, clockAll pt v s = .ok bits u) :
    (clockAll pt v s).Leaves (¬T) (fun bits u => clockAll pt v s = .ok bits u) fun _ => False := by
  have never : (clockAll pt v s).Post (fun _ _ => True) fun _ => False := by
    clear h
    induction v generalizing s with
    | nil => trivial
    | cons p v ih => exact (clock_post true pt p.1 p.2 s).seq fun _ _ _ => ih.seq fun _ _ _ => trivial
  cases hc : clockAll pt v s with
  | ok bits u => exact rfl
  | stuck u => rw [hc] at never; exact never
  | fault f => intro hT; obtain ⟨_, _, e⟩ := h hT; rw [hc] at e; cases e
  | refused r => intro hT; obtain ⟨_, _, e⟩ := h hT; rw [hc] at e; cases e

/-- What the adapter's run of pieces leaves. -/
theorem runPieces_leaves {T : Prop} {e : Bool} {ps : List Piece} {s : State}
    (h : T → ∃ bits u, clockAll (s.usbPoint e) (cyclesOf s.usb.tms ps) s = .ok bits u) :
    (runPieces e ps s).Leaves (¬T)
      (fun _ t => ∃ bits u, clockAll (s.usbPoint e) (cyclesOf s.usb.tms ps) s = .ok bits u ∧
        t = u.setUsb (s.usb.ran ps bits)) fun _ => False := by
  rw [runPieces_eq]
  exact (clockAll_leaves h).bind fun bits u hc => ⟨bits, u, hc, rfl⟩

end Sys2Proof.Machine
end

section
/-! ## The assembler's batch

Between two flushes the driver's batch is a list of commands with one descriptor for each of their pieces (R231 to R235). -/

namespace Sys2Proof.Machine

/-- The open run is the last command of the batch, a byte-shift, and the driver knows its place and its count (R231). -/
structure OpenRun (c : Config) (h : UsbHost) (ps : List Piece) (r : ByteRun) (is : List Instr) (qs : List Piece)
    (d : List Byte) : Prop where
  commands : Assembles h.edge is qs
  out : h.out = (is ++ [Instr.uByteShift h.edge d]).flatMap (encodeCommand c)
  pieces : ps = qs ++ d.map .byte
  pos : r.pos = (is.flatMap (encodeCommand c)).length
  count : r.k = d.length
  count_pos : 1 ≤ d.length
  count_le : d.length ≤ 65536

/-- The batch holds the pieces `ps`, the first of them at bit `pos`. -/
structure UsbHost.Holds (c : Config) (h : UsbHost) (pos : Nat) (ps : List Piece) : Prop where
  out : ∃ is, Assembles h.edge is ps ∧ h.out = is.flatMap (encodeCommand c)
  desc : h.desc = descriptors pos ps
  run : ∀ r, h.run = some r → ∃ is qs d, OpenRun c h ps r is qs d

variable {c : Config} {h : UsbHost} {pos : Nat} {ps : List Piece}

theorem UsbHost.holds_nil (c : Config) (pos : Nat) (ho : h.out = []) (hd : h.desc = []) (hr : h.run = none) :
    h.Holds c pos [] :=
  ⟨⟨[], .nil, ho⟩, hd, fun r e => by rw [hr] at e; cases e⟩

/-- A command has a piece, so a batch without pieces is empty. -/
theorem Assembles.eq_nil {e : Bool} {is : List Instr} (hs : Assembles e is []) : is = [] := by
  generalize hp : ([] : List Piece) = ps at hs
  cases hs with
  | nil => rfl
  | cons h' _ =>
    obtain ⟨h1, _⟩ := List.append_eq_nil_iff.1 hp.symm
    cases h' with
    | bytes d hd _ => rw [List.map_eq_nil_iff] at h1; simp [h1] at hd
    | bits => cases h1
    | tms => cases h1

theorem UsbHost.Holds.out_nil (hh : h.Holds c pos []) : h.out = [] := by
  obtain ⟨is, hs, ho⟩ := hh.out
  rw [ho, hs.eq_nil]
  rfl

/-- The run's end, and the host's copy of the level, are no matter of the batch. -/
theorem UsbHost.Holds.endRun (hh : h.Holds c pos ps) : UsbHost.Holds c { h with run := none } pos ps :=
  ⟨hh.out, hh.desc, nofun⟩

theorem UsbHost.Holds.setLevel (hh : h.Holds c pos ps) (l : Option Bool) :
    UsbHost.Holds c { h with tmsLevel := l } pos ps :=
  ⟨hh.out, hh.desc, fun r hr =>
    have ⟨is, qs, d, ho⟩ := hh.run r hr
    ⟨is, qs, d, ho.commands, ho.out, ho.pieces, ho.pos, ho.count, ho.count_pos, ho.count_le⟩⟩

/-- A command of one piece is appended, with its descriptor, and no run is open after it (R235). -/
theorem UsbHost.Holds.emit (hh : h.Holds c pos ps) {i : Instr} {p : Piece} (hi : Assembled h.edge i [p]) :
    UsbHost.Holds c { h with
      out := h.out ++ encodeCommand c i
      desc := h.desc ++ [p.descriptor (pos + (cyclesOf false ps).length)]
      run := none } pos (ps ++ [p]) := by
  obtain ⟨is, hs, ho⟩ := hh.out
  refine ⟨⟨is ++ [i], hs.snoc hi, by simp [ho]⟩, ?_, nofun⟩
  rw [descriptors_append pos false, ← hh.desc]
  rfl

/-- A byte-shift of one byte is appended, and its run is open (R231). -/
theorem UsbHost.Holds.beginRun (hh : h.Holds c pos ps) (d : Byte) :
    UsbHost.Holds c { h with
      out := h.out ++ [c.opBytes h.edge, 0, 0, d]
      desc := h.desc ++ [.byteShift (pos + (cyclesOf false ps).length)]
      run := some { pos := h.out.length, k := 1 } } pos (ps ++ [.byte d]) := by
  obtain ⟨is, hs, ho⟩ := hh.out
  have hi : Assembled h.edge (.uByteShift h.edge [d]) [.byte d] := .bytes [d] (by simp) (by simp)
  have he : encodeCommand c (.uByteShift h.edge [d]) = [c.opBytes h.edge, 0, 0, d] := by
    simp [encodeCommand, leBytes]
  refine ⟨⟨is ++ [_], hs.snoc hi, by simp [ho, he]⟩, (hh.emit hi).desc, ?_⟩
  rintro r ⟨⟩
  exact ⟨is, ps, [d], hs, by simp [ho, he], rfl, by rw [ho], rfl, by simp, by simp⟩

/-- A byte joins the open run: the data byte goes to the end, the count bytes of the command are set anew (R231). -/
theorem UsbHost.Holds.join (hh : h.Holds c pos ps) {r : ByteRun} (hr : h.run = some r) (hk : r.k ≠ 65536) (d : Byte) :
    UsbHost.Holds c { h with
      out := ((h.out ++ [d]).set (r.pos + 1) (BitVec.ofNat 8 r.k)).set (r.pos + 2) (BitVec.ofNat 8 (r.k / 256))
      desc := h.desc ++ [.byteShift (pos + (cyclesOf false ps).length)]
      run := some { r with k := r.k + 1 } } pos (ps ++ [.byte d]) := by
  obtain ⟨is, qs, ds, ho⟩ := hh.run r hr
  have hlen : (ds ++ [d]).length = ds.length + 1 := by simp
  have hne : ds.length ≠ 65536 := ho.count ▸ hk
  have hle := ho.count_le
  have hset : ((h.out ++ [d]).set (r.pos + 1) (BitVec.ofNat 8 r.k)).set (r.pos + 2) (BitVec.ofNat 8 (r.k / 256)) =
      (is ++ [Instr.uByteShift h.edge (ds ++ [d])]).flatMap (encodeCommand c) := by
    rw [ho.out, ho.pos, ho.count]
    simp [encodeCommand, leBytes]
  have hps : ps ++ [.byte d] = qs ++ (ds ++ [d]).map .byte := by rw [ho.pieces]; simp
  have hi : Assembled h.edge (.uByteShift h.edge (ds ++ [d])) ((ds ++ [d]).map .byte) :=
    .bytes _ (by omega) (by omega)
  refine ⟨⟨is ++ [_], hps ▸ ho.commands.snoc hi, hset⟩, ?_, ?_⟩
  · rw [descriptors_append pos false, ← hh.desc]
    rfl
  · rintro _ ⟨⟩
    exact ⟨is, qs, ds ++ [d], ho.commands, hset, hps, ho.pos, by simp [ho.count], by omega, by omega⟩

/-- What the adapter does with the batch, written to an empty stream. -/
theorem usbWrite_holds {s : State} (hw : s.cfg.wellFormed = true) (hq : s.usb.cmdq = [])
    (hh : s.usbHost.Holds s.cfg pos ps) :
    usbWrite s.usbHost.out s = (usbAccept s).bind fun _ t => runPieces s.usbHost.edge ps t := by
  obtain ⟨is, hs, ho⟩ := hh.out
  refine Res.bind_congr_ok fun _ t ht => ?_
  obtain ⟨-, rfl⟩ := usbAccept_eq_ok.1 ht
  have hl := hs.length_le s.cfg
  simp only [State.setEnv_usb, hq, List.nil_append]
  rw [adapterRun_assembles hs (by rw [ho]; exact hl) (by simpa using hw) (by simpa using ho)]
  simp only [State.setUsb_usb, ← hq]
  rfl

end Sys2Proof.Machine
end

section
/-! ## The scan of a shift over USB

One invariant for the whole of `UsbShift` (R230): what stands in the batch are the cycles of the vector that have been
scanned and not flushed (`Scanning`). Where a condition `T` vouches for the transfers and for the cycles, what has been
flushed is in the capture buffer and in the target as `ShiftSpec` has it (`Flushed`). -/

namespace Sys2Proof.Machine

/-- The first `m` cycles of the vector `v`, from `s0` on, have been clocked and captured. -/
structure Flushed (s0 : State) (v : List (Bool × Bool)) (m : Nat) (s : State) : Prop where
  clocked : ∃ bits u, clockAll (s0.usbPoint s0.usbHost.edge) (v.take m) s0 = .ok bits u ∧ s.target = u.target ∧
    s.draws = u.draws ∧ Captured v.length s.host.tdoBuf bits
  rspq : s.usb.rspq = []
  transfers : s.transfersOk
  div : s.usb.div = s0.usb.div
  edge : s.usbHost.edge = s0.usbHost.edge
  env : s.env = { s0.env with delivery := s.env.delivery, writes := s.env.writes }
  mmio : s.mmio = s0.mmio
  shadow : s.shadow = s0.shadow

/-- `p` cycles of the vector `v` have been scanned, the first `m` of them flushed, the others stand in the batch as the
pieces `ps`; the scan cursor is at byte `k`. -/
structure Scanning (T : Prop) (s0 : State) (v : List (Bool × Bool)) (k p m : Nat) (ps : List Piece) (s : State) :
    Prop where
  wf : s.cfg.wellFormed = true
  queue : s.usb.cmdq = []
  holds : s.usbHost.Holds s.cfg m ps
  level : s.usbHost.tmsLevel = none ∨ s.usbHost.tmsLevel = some (levelAfter s.usb.tms ps)
  cycles : v.take m ++ cyclesOf s.usb.tms ps = v.take p
  flushed_le : m ≤ v.length
  scanned_le : p ≤ v.length
  aligned : Aligned m ps
  scan : s.host.scan = k
  flushed : T → Flushed s0 v m s

/-- What `T` vouches for: the adapter answers, and all cycles of the vector can be clocked. -/
def Vouched (T : Prop) (s0 : State) (v : List (Bool × Bool)) : Prop :=
  T → s0.env.usbAlive = true ∧ ∃ bits u, clockAll (s0.usbPoint s0.usbHost.edge) v s0 = .ok bits u

variable {T : Prop} {s0 s : State} {v : List (Bool × Bool)} {k p m : Nat} {ps : List Piece}

/-- The batch ends at the bit that the scan has reached. -/
theorem Scanning.position (h : Scanning T s0 v k p m ps s) (level : Bool) :
    m + (cyclesOf level ps).length = p := by
  have e := congrArg List.length h.cycles
  have h1 := h.flushed_le
  have h2 := h.scanned_le
  rw [List.length_append, List.length_take, List.length_take, cyclesOf_length s.usb.tms level] at e
  omega

/-- The adapter's level is what the host takes it to be. -/
def HostLevel (h : UsbHost) (l : Bool) : Prop := h.tmsLevel = none ∨ h.tmsLevel = some l

/-- The next cycles go into the batch. -/
theorem Scanning.append (h : Scanning T s0 v k p m ps s) {q : Piece} {p' : Nat} {x : UsbHost}
    (hx : x.Holds s.cfg m (ps ++ [q])) (he : x.edge = s.usbHost.edge)
    (hc : ∀ l, HostLevel s.usbHost l → v.take p ++ q.cycles l = v.take p') (hp : p' ≤ v.length)
    (ha : q.AlignedAt p) (hl : ∀ l, HostLevel s.usbHost l → HostLevel x (q.level l)) :
    Scanning T s0 v k p' m (ps ++ [q]) (s.setUsbHost x) where
  wf := h.wf
  queue := h.queue
  holds := hx
  level := by
    rw [levelAfter_append]
    exact hl _ h.level
  cycles := by
    rw [cyclesOf_append, ← List.append_assoc, State.setUsbHost_usb, h.cycles]
    simpa [cyclesOf] using hc _ h.level
  flushed_le := h.flushed_le
  scanned_le := hp
  aligned := (aligned_append m false ps [q]).2 ⟨h.aligned, by rw [h.position]; exact ⟨ha, trivial⟩⟩
  scan := h.scan
  flushed hT :=
    have f := h.flushed hT
    ⟨f.clocked, f.rspq, f.transfers, f.div, he.trans f.edge, f.env, f.mmio, f.shadow⟩

/-- The end of the open run changes nothing else. -/
theorem Scanning.endRun (h : Scanning T s0 v k p m ps s) :
    Scanning T s0 v k p m ps (s.setUsbHost { s.usbHost with run := none }) :=
  ⟨h.wf, h.queue, h.holds.endRun, h.level, h.cycles, h.flushed_le, h.scanned_le, h.aligned, h.scan, fun hT =>
    have f := h.flushed hT
    ⟨f.clocked, f.rspq, f.transfers, f.div, f.edge, f.env, f.mmio, f.shadow⟩⟩

/-- The batch of `s` has been run: the cycles up to `p` are clocked, their responses wait to be read. -/
structure BatchRun (s0 : State) (v : List (Bool × Bool)) (p m : Nat) (ps : List Piece) (s t : State) : Prop where
  clocked : ∃ a b u, clockAll (s0.usbPoint s0.usbHost.edge) (v.take p) s0 = .ok (a ++ b) u ∧ a.length = m ∧
    b.length = (cyclesOf false ps).length ∧ Captured v.length s.host.tdoBuf a ∧ t.target = u.target ∧
    t.draws = u.draws ∧ t.usb.rspq = responses s.usb.rb ps b
  transfers : t.transfersOk
  div : t.usb.div = s0.usb.div
  edge : t.usbHost.edge = s0.usbHost.edge
  env : t.env = { s0.env with delivery := t.env.delivery, writes := t.env.writes }
  mmio : t.mmio = s0.mmio
  shadow : t.shadow = s0.shadow

/-- What a write of the batch leaves, under `T` or not. -/
structure Written (T : Prop) (s0 : State) (v : List (Bool × Bool)) (p m : Nat) (ps : List Piece) (s t : State) :
    Prop where
  cfg : t.cfg = s.cfg
  usbHost : t.usbHost = s.usbHost
  host : t.host = s.host
  queue : t.usb.cmdq = []
  tms : t.usb.tms = levelAfter s.usb.tms ps
  run : T → BatchRun s0 v p m ps s t

/-- The cycles of the batch can be clocked where the whole vector can. -/
theorem Scanning.clocks (h : Scanning T s0 v k p m ps s) (hv : Vouched T s0 v) (hT : T) {w : State}
    (hw : SameWire (s.usbPoint s.usbHost.edge) s (s.usbPoint s.usbHost.edge) w) :
    ∃ a b u, clockAll (s0.usbPoint s0.usbHost.edge) (v.take p) s0 = .ok (a ++ b) u ∧ a.length = m ∧
      Captured v.length s.host.tdoBuf a ∧ clockAll (s.usbPoint s.usbHost.edge) (cyclesOf s.usb.tms ps) w =
        .ok b ((w.setDraws u.draws).setTarget u.target) := by
  have f := h.flushed hT
  obtain ⟨a, u1, ha, htarget, hdraws, hcap⟩ := f.clocked
  obtain ⟨bits, u, hall⟩ := (hv hT).2
  rw [← List.take_append_drop p v] at hall
  obtain ⟨_, u2, _, htake, -, -⟩ := clockAll_append_ok hall
  have hsplit := htake
  rw [← h.cycles] at hsplit
  obtain ⟨_, _, b, h1, h2, rfl⟩ := clockAll_append_ok hsplit
  rw [ha] at h1
  cases h1
  have hpt : s.usbPoint s.usbHost.edge = s0.usbPoint s0.usbHost.edge := by
    rw [State.usbPoint, f.div, f.edge]; rfl
  have hvalid : s.env.isValid = u1.env.isValid := by rw [f.env, (clockAll_eq_ok ha).1]; rfl
  have wire : SameWire (s0.usbPoint s0.usbHost.edge) u1 (s.usbPoint s.usbHost.edge) w :=
    ⟨by rw [hw.valid, hvalid, hpt], hw.target.trans htarget, hw.draws.trans hdraws⟩
  have hm := h.flushed_le
  refine ⟨a, b, u2, htake, ?_, hcap, wire.clockAll h2⟩
  rw [(clockAll_eq_ok ha).2, List.length_take]
  omega

theorem usbWrite_scanning (h : Scanning T s0 v k p m ps s) (hv : Vouched T s0 v) :
    (usbWrite s.usbHost.out s).Leaves (¬T) (fun _ t => Written T s0 v p m ps s t) fun _ => False := by
  rw [usbWrite_holds h.wf h.queue h.holds]
  refine (usbAccept_leaves fun hT => (h.flushed hT).transfers.2).seq ?_
  rintro _ _ ⟨w, rfl, hw⟩
  have hclk := fun hT => h.clocks hv hT (w := s.setEnv { s.env with writes := w }) ⟨rfl, rfl, rfl⟩
  refine (runPieces_leaves fun hT => ?_).mono ?_ fun _ => False.elim
  · obtain ⟨_, b, _, _, _, _, e⟩ := hclk hT
    exact ⟨b, _, e⟩
  rintro _ _ ⟨b, u, hu, rfl⟩
  have eu := (clockAll_eq_ok hu).1
  have hlen : b.length = (cyclesOf false ps).length := by rw [(clockAll_eq_ok hu).2]; exact cyclesOf_length _ _ _
  have ecfg : u.cfg = s.cfg := by rw [eu]; rfl
  have euh : u.usbHost = s.usbHost := by rw [eu]; rfl
  have ehost : u.host = s.host := by rw [eu]; rfl
  have eenv : u.env = { s.env with writes := w } := by rw [eu]; rfl
  have emmio : u.mmio = s.mmio := by rw [eu]; rfl
  have eshadow : u.shadow = s.shadow := by rw [eu]; rfl
  refine ⟨ecfg, euh, ehost, (Usb.ran_cmdq _ _ _).trans h.queue, Usb.ran_tms _ _ _, fun hT => ?_⟩
  have f := h.flushed hT
  obtain ⟨a, b', u', hp, ha, hcap, e⟩ := hclk hT
  have e' := hu.symm.trans e
  cases e'
  have hrspq : ((s.usb.ran ps b).rspq) = responses s.usb.rb ps b := by rw [Usb.ran_rspq, f.rspq]; rfl
  refine ⟨⟨a, b, u', hp, ha, hlen, hcap, rfl, rfl, hrspq⟩, ⟨f.transfers.1, hw hT⟩, (Usb.ran_div _ _ _).trans f.div,
    f.edge, ?_, f.mmio, f.shadow⟩
  simp only [State.setUsb_env, State.setTarget_env, State.setDraws_env, State.setEnv_env]
  rw [f.env]

/-- The batch's responses unpacked, the batch empty: what `usbFlush` makes of the bytes it reads (R240, R242). -/
def State.unpacked (s : State) (rx : List Byte) : State :=
  (s.setHost { replay s.usbHost.desc rx { s.host with descIdx := 0 } with descIdx := 0 }).setUsbHost
    { s.usbHost with out := [], desc := [] }

theorem usbFlush_of_desc (hd : s.usbHost.desc ≠ []) :
    usbFlush s = (usbWrite s.usbHost.out (s.setUsbHost { s.usbHost with run := none })).bind fun _ t =>
      (usbRead t.env.delivery t.usbHost.desc.length [] t).bind fun rx u => .ok () (u.unpacked rx) := by
  unfold usbFlush
  dsimp only
  rw [if_neg (by exact hd)]
  rfl

theorem State.unpacked_host (s : State) (rx : List Byte) :
    ∃ buf, (s.unpacked rx).host = { s.host with tdoBuf := buf, descIdx := 0 } ∧
      buf = (replay s.usbHost.desc rx { s.host with descIdx := 0 }).tdoBuf := by
  obtain ⟨buf, k, e⟩ := replay_frame s.usbHost.desc rx { s.host with descIdx := 0 }
  refine ⟨buf, ?_, by rw [e]⟩
  simp only [State.unpacked, State.setUsbHost_host, State.setHost_host, e]

/-- A flush empties the batch: the adapter has run it, and its responses are unpacked (R240 to R242). The host is stuck
only where bytes do not come, the levels then agreeing (R351, R50). -/
theorem usbFlush_scanning (h : Scanning T s0 v k p m ps s) (hv : Vouched T s0 v) :
    (usbFlush s).Leaves (¬T)
      (fun _ t => Scanning T s0 v k p p [] t ∧ t.usbHost = { s.usbHost with out := [], desc := [], run := none })
      (fun t => ¬T ∧ t.levelOk = true) := by
  by_cases hd : s.usbHost.desc = []
  · have hps : ps = [] := by simpa using congrArg List.length (h.holds.desc.symm.trans hd)
    subst hps
    obtain rfl : m = p := h.position false
    have e : ({ s.usbHost with run := none } : UsbHost) = { s.usbHost with out := [], desc := [], run := none } := by
      rw [← h.holds.out_nil, ← hd]
    have ef : usbFlush s = .ok () (s.setUsbHost { s.usbHost with run := none }) := by
      unfold usbFlush
      exact if_pos hd
    rw [ef]
    exact ⟨h.endRun, e⟩
  · rw [usbFlush_of_desc hd]
    refine (usbWrite_scanning h.endRun hv).seq fun _ t ht => ?_
    have hdesc : t.usbHost.desc = descriptors m ps := by rw [ht.usbHost]; exact h.holds.desc
    refine ((usbRead_leaves fun hT => ?_).mono (fun _ _ h => h) ?_).bind ?_
    · have r := ht.run hT
      obtain ⟨a, b, u, -, -, -, -, -, -, hr⟩ := r.clocked
      refine ⟨r.transfers.1, by rw [r.env]; exact (hv hT).1, ?_⟩
      rw [hr, hdesc]
      simp
    · rintro u ⟨hT, q, d, rfl⟩
      refine ⟨hT, ?_⟩
      have hl : t.usbHost.tmsLevel = none ∨ t.usbHost.tmsLevel = some t.usb.tms := by
        rw [ht.usbHost, ht.tms]
        exact h.level
      simp [State.levelOk, State.levelsAgree, ht.queue, hl]
    · rintro rx u ⟨q, d, rfl, hrx⟩
      obtain ⟨buf, hhost, hbuf⟩ :=
        ((t.setUsb { t.usb with rspq := q }).setEnv { t.env with delivery := d }).unpacked_host rx
      have huh : (((t.setUsb { t.usb with rspq := q }).setEnv { t.env with delivery := d }).unpacked rx).usbHost =
          { s.usbHost with out := [], desc := [], run := none } := by
        simp [State.unpacked, ht.usbHost]
      refine ⟨⟨?_, ht.queue, ?_, ?_, by simp [cyclesOf], h.scanned_le, h.scanned_le, trivial, ?_, fun hT => ?_⟩, huh⟩
      · exact ht.cfg ▸ h.wf
      · rw [huh]
        exact UsbHost.holds_nil _ _ rfl rfl rfl
      · rw [huh]
        exact (show _ = levelAfter s.usb.tms ps from ht.tms) ▸ h.level
      · rw [hhost]
        exact (congrArg HostSeq.scan ht.host).trans h.scan
      · have r := ht.run hT
        obtain ⟨rfl, rfl, he⟩ := hrx hT
        obtain ⟨a, b, u, hc, ha, hb, hcap, htarget, hdraws, hr⟩ := r.clocked
        have hlen : t.usbHost.desc.length = t.usb.rspq.length := by rw [hdesc, hr]; simp
        refine ⟨⟨a ++ b, u, hc, htarget, hdraws, ?_⟩, ?_, ⟨he, r.transfers.2⟩, r.div, ?_, ?_, r.mmio, r.shadow⟩
        · have hbuf' : buf = (replay (descriptors m ps) (responses s.usb.rb ps b) { t.host with descIdx := 0 }).tdoBuf := by
            rw [hbuf]
            show (replay t.usbHost.desc (t.usb.rspq.take t.usbHost.desc.length) _).tdoBuf = _
            rw [hlen, List.take_length, hr, hdesc]
            rfl
          have hcap' : Captured v.length t.host.tdoBuf a := by rw [ht.host]; exact hcap
          have hpos := h.position false
          have hp := h.scanned_le
          rw [hhost]
          show Captured v.length buf _
          rw [hbuf', ← ha]
          exact replay_captured false ps (h := { t.host with descIdx := 0 }) s.usb.rb hcap' (ha ▸ h.aligned) hb
            (by omega)
        · exact List.drop_eq_nil_of_le (by rw [hlen])
        · rw [huh, ← r.edge, ht.usbHost]
          rfl
        · show ({ t.env with delivery := d } : Env) = _
          rw [r.env]
          rfl

end Sys2Proof.Machine
end

section
/-! ## The assembler's arms, and the whole shift over USB -/

namespace Sys2Proof.Machine

variable {T : Prop} {s0 s : State} {v : List (Bool × Bool)} {k p m : Nat} {ps : List Piece}

/-- The states a stuck host is left in: only where `T` does not vouch, with the levels agreeing. -/
def Stranded (T : Prop) (t : State) : Prop := ¬T ∧ t.levelOk = true

/-- `p` cycles have been scanned, some of them flushed. -/
def Scanned (T : Prop) (s0 : State) (v : List (Bool × Bool)) (k p : Nat) (s : State) : Prop :=
  ∃ m ps, Scanning T s0 v k p m ps s

/-- A flush before an append, where a budget asks for one, keeps what has been scanned, the edge and the host's level. -/
theorem flushFirst_scanning (h : Scanning T s0 v k p m ps s) (hv : Vouched T s0 v) (full : Bool) :
    (if full then usbFlush s else .ok () s).Leaves (¬T)
      (fun _ t => Scanned T s0 v k p t ∧ t.cfg = s.cfg ∧ t.usbHost.edge = s.usbHost.edge ∧
        t.usbHost.tmsLevel = s.usbHost.tmsLevel ∧ (s.usbHost.run = none → t.usbHost.run = none))
      (Stranded T) := by
  cases full with
  | false => exact ⟨⟨m, ps, h⟩, rfl, rfl, rfl, id⟩
  | true =>
    refine ((usbFlush_scanning h hv).and (usbFlush_keeps s).post).mono ?_ fun _ => id
    rintro _ t ⟨⟨ht, e⟩, hcfg, -⟩
    rw [e]
    exact ⟨⟨p, [], ht⟩, hcfg, rfl, rfl, fun _ => rfl⟩

/-- `Emit` of a command of one piece: the next cycles are scanned once the host's copy of the level is `L`. -/
theorem usbEmit_scanning (h : Scanning T s0 v k p m ps s) (hv : Vouched T s0 v) {i : Instr} {q : Piece}
    {bytes : List Byte} {d : Descriptor} (hi : Assembled s.usbHost.edge i [q]) (hb : bytes = encodeCommand s.cfg i)
    (hd : d = q.descriptor p) {p' : Nat} {L : Option Bool}
    (hc : ∀ l, HostLevel s.usbHost l → v.take p ++ q.cycles l = v.take p') (hp : p' ≤ v.length) (ha : q.AlignedAt p)
    (hl : ∀ l, HostLevel s.usbHost l → L = none ∨ L = some (q.level l)) :
    (usbEmit bytes [d] s).Leaves (¬T)
      (fun _ t => t.cfg = s.cfg ∧ t.usbHost.edge = s.usbHost.edge ∧ t.usbHost.tmsLevel = s.usbHost.tmsLevel ∧
        Scanned T s0 v k p' (t.setUsbHost { t.usbHost with tmsLevel := L }))
      (Stranded T) := by
  refine (flushFirst_scanning h.endRun hv _).bind ?_
  rintro _ t ⟨⟨m', ps', ht⟩, hcfg, hedge, hlevel, hrun⟩
  have hedge' : t.usbHost.edge = s.usbHost.edge := hedge
  have hlevel' : t.usbHost.tmsLevel = s.usbHost.tmsLevel := hlevel
  have hrun' : t.usbHost.run = none := hrun rfl
  have hcfg' : t.cfg = s.cfg := hcfg
  have hlv : ∀ l, HostLevel t.usbHost l → HostLevel s.usbHost l := fun l => by simp only [HostLevel, hlevel', imp_self]
  have hx := (ht.holds.emit (hedge' ▸ hi)).setLevel L
  rw [ht.position false, ← hd, hcfg', ← hb] at hx
  have e : ({ t.usbHost with out := t.usbHost.out ++ bytes, desc := t.usbHost.desc ++ [d], tmsLevel := L } : UsbHost) =
      { t.usbHost with
        out := t.usbHost.out ++ bytes, desc := t.usbHost.desc ++ [d], run := none, tmsLevel := L } := by rw [← hrun']
  refine ⟨hcfg', hedge', hlevel', m', ps' ++ [q], ?_⟩
  show Scanning T s0 v k p' m' (ps' ++ [q]) (t.setUsbHost
    { t.usbHost with out := t.usbHost.out ++ bytes, desc := t.usbHost.desc ++ [d], tmsLevel := L })
  rw [e]
  exact ht.append (hcfg' ▸ hx) rfl (fun l hl' => hc l (hlv l hl')) hp ha fun l hl' => hl l (hlv l hl')

theorem joinableRun_eq_some {c : Config} {h : UsbHost} {r : ByteRun} (e : joinableRun c h = some r) :
    h.run = some r ∧ r.k ≠ 65536 := by
  unfold joinableRun at e
  split at e
  · cases e
  · rename_i r' hr
    split at e
    · cases e
    · rename_i hk
      cases e
      exact ⟨hr, fun h => hk (.inr (.inr h))⟩

/-- `ByteArm` scans eight cycles with TMS 0, the level being 0 (R231). -/
theorem byteArm_scanning {i : Nat} {d : Byte} (h : Scanning T s0 v k (8 * i) m ps s) (hv : Vouched T s0 v)
    (hlevel : s.usbHost.tmsLevel = some false)
    (hc : v.take (8 * i) ++ (Piece.byte d).cycles false = v.take (8 * i + 8)) (hp : 8 * i + 8 ≤ v.length) :
    (byteArm i d s).Leaves (¬T) (fun _ t => Scanned T s0 v k (8 * i + 8) t) (Stranded T) := by
  have hc' : ∀ h : UsbHost, h.tmsLevel = some false →
      ∀ l, HostLevel h l → v.take (8 * i) ++ (Piece.byte d).cycles l = v.take (8 * i + 8) := by
    intro h e l hl
    obtain rfl : false = l := by simpa [HostLevel, e] using hl
    exact hc
  have ha : (Piece.byte d).AlignedAt (8 * i) := Nat.mul_mod_right 8 i
  unfold byteArm
  split
  · rename_i r hr
    obtain ⟨hr, hk⟩ := joinableRun_eq_some hr
    have hx := h.holds.join hr hk d
    rw [h.position false] at hx
    exact ⟨m, _, h.append hx rfl (hc' _ hlevel) hp ha fun l hl => hl⟩
  · refine (flushFirst_scanning h hv _).bind ?_
    rintro _ t ⟨⟨m', ps', ht⟩, -, -, htl, -⟩
    have hx := ht.holds.beginRun d
    rw [ht.position false] at hx
    exact ⟨m', _, ht.append hx rfl (hc' _ (htl.trans hlevel)) hp ha fun l hl => hl⟩

/-- The TMS-shift arm scans one cycle for each bit (R233). -/
theorem tmsArm_scanning {i : Nat} {mb db : Byte} (n b : Nat) (h : Scanning T s0 v k (8 * i + b) m ps s)
    (hv : Vouched T s0 v)
    (hc : ∀ j < n, v.take (8 * i + b + j) ++ [(mb.getLsbD (b + j), db.getLsbD (b + j))] = v.take (8 * i + b + j + 1))
    (hp : 8 * i + b + n ≤ v.length) :
    (tmsArm i mb db (List.range' b n) s).Leaves (¬T) (fun _ t => Scanned T s0 v k (8 * i + b + n) t) (Stranded T) := by
  induction n generalizing b m ps s with
  | zero => exact ⟨m, ps, h⟩
  | succ n ih =>
    rw [List.range'_succ]
    refine (usbEmit_scanning h hv (.tms (mb.getLsbD b) (db.getLsbD b)) rfl rfl (p' := 8 * i + (b + 1))
      (L := some (mb.getLsbD b)) (fun _ _ => ?_) (by omega) trivial fun _ _ => .inr rfl).bind ?_
    · simpa [Nat.add_assoc, Piece.cycles] using hc 0 (by omega)
    · rintro _ t ⟨-, -, -, m', ps', ht⟩
      have e := ih (b + 1) ht (fun j hj => ?_) (by omega)
      · rwa [show 8 * i + (b + 1) + n = 8 * i + b + (n + 1) by omega] at e
      · have := hc (j + 1) (by omega)
        rwa [show 8 * i + b + (j + 1) = 8 * i + (b + 1) + j by omega, show b + (j + 1) = b + 1 + j by omega] at this

/-- The scan cursor moves on to the next byte. -/
theorem Scanning.nextByte (h : Scanning T s0 v k p m ps s) :
    Scanning T s0 v (k + 1) p m ps (s.setHost { s.host with scan := s.host.scan + 1 }) :=
  ⟨h.wf, h.queue, h.holds, h.level, h.cycles, h.flushed_le, h.scanned_le, h.aligned, congrArg (· + 1) h.scan, fun hT =>
    have f := h.flushed hT
    ⟨f.clocked, f.rspq, f.transfers, f.div, f.edge, f.env, f.mmio, f.shadow⟩⟩

/-- The `w` low bits of a byte are 0 where the byte under the mask is (R230). -/
theorem getLsbD_of_masked_eq_zero {x : Byte} {w j : Nat} (h : x &&& BitVec.ofNat 8 (2 ^ w - 1) = 0) (hj : j < w)
    (hj8 : j < 8) : x.getLsbD j = false := by
  have e := congrArg (fun y : Byte => y.getLsbD j) h
  simp only [BitVec.getLsbD_and, BitVec.getLsbD_ofNat, Nat.testBit_two_pow_sub_one, hj, hj8, decide_true,
    Bool.and_true] at e
  exact e.trans BitVec.getLsbD_zero

/-- The next cycles of a vector, from one TMS byte and one TDI byte (R61, R133). -/
theorem vectorOf_take_byte {n i w : Nat} (tms tdi : List Byte) (hw : w ≤ 8) (hn : 8 * i + w ≤ n) :
    (vectorOf n tms tdi).take (8 * i + w) = (vectorOf n tms tdi).take (8 * i) ++
      (List.range w).map fun j => ((tms.getD i 0).getLsbD j, (tdi.getD i 0).getLsbD j) := by
  rw [vectorOf_take_add tms tdi hn]
  congr 1
  refine List.map_congr_left fun j hj => ?_
  rw [List.mem_range] at hj
  rw [bitAt_of_lt (by omega), bitAt_of_lt (by omega)]

/-- The same where the TMS bits are 0: the TDI bits with the level held at 0 (R231, R232). -/
theorem vectorOf_take_zeroByte {n i w : Nat} {tms : List Byte} (tdi : List Byte) (hw : w ≤ 8) (hn : 8 * i + w ≤ n)
    (hz : tms.getD i 0 &&& BitVec.ofNat 8 (2 ^ w - 1) = 0) :
    (vectorOf n tms tdi).take (8 * i) ++ ((byteBits (tdi.getD i 0)).take w).map (fun b => (false, b)) =
      (vectorOf n tms tdi).take (8 * i + w) := by
  rw [vectorOf_take_byte tms tdi hw hn, byteBits_eq_map, ← List.map_take, List.take_range, Nat.min_eq_left hw,
    List.map_map]
  congr 1
  refine List.map_congr_left fun j hj => ?_
  rw [List.mem_range] at hj
  rw [getLsbD_of_masked_eq_zero hz hj (by omega)]
  rfl

/-- The arms for one TMS byte scan its valid bits (R230). -/
theorem usbByte_scanning {n : Nat} {tms tdi : List Byte}
    (h : Scanning T s0 (vectorOf n tms tdi) k (8 * k) m ps s) (hv : Vouched T s0 (vectorOf n tms tdi))
    (hk : 8 * k < n) :
    (usbByte n tms tdi s).Leaves (¬T) (fun _ t => Scanned T s0 (vectorOf n tms tdi) (k + 1) (min n (8 * (k + 1))) t)
      (Stranded T) := by
  have hend : 8 * k + min 8 (n - 8 * k) = min n (8 * (k + 1)) := by omega
  have hlen : 8 * k + min 8 (n - 8 * k) ≤ (vectorOf n tms tdi).length := by rw [vectorOf_length]; omega
  have hzero := vectorOf_take_zeroByte (n := n) (i := k) (tms := tms) tdi (Nat.min_le_left 8 (n - 8 * k)) (by omega)
  unfold usbByte
  simp only [h.scan]
  refine Res.Leaves.bind (P := fun _ t => Scanned T s0 (vectorOf n tms tdi) k (min n (8 * (k + 1))) t) ?_ ?_
  · rw [← hend]
    split
    · rename_i hcase
      obtain ⟨ht, hl, h8⟩ := hcase
      have hz := hzero ht
      rw [Nat.min_eq_left h8] at hlen hz ⊢
      rw [List.take_of_length_le (l := byteBits _) (by simp)] at hz
      exact byteArm_scanning h hv hl hz hlen
    · rename_i hnot
      split
      · rename_i hcase
        obtain ⟨ht, hl⟩ := hcase
        have h8 : n - 8 * k ≤ 8 := Nat.le_of_not_ge fun h8 => hnot ⟨ht, hl, h8⟩
        have hz := hzero ht
        rw [Nat.min_eq_right h8] at hlen hz ⊢
        refine (usbEmit_scanning h hv (.bits (n - 8 * k) (tdi.getD k 0) (by omega) h8) rfl rfl
          (p' := 8 * k + (n - 8 * k)) (L := s.usbHost.tmsLevel) ?_ hlen ⟨Nat.mul_mod_right 8 k, by omega, h8⟩
          fun l hl' => hl').mono ?_ fun _ => id
        · intro l hl'
          obtain rfl : false = l := by simpa [HostLevel, hl] using hl'
          exact hz
        · rintro _ t ⟨-, -, htl, ht⟩
          rw [← htl] at ht
          exact ht
      · rw [List.range_eq_range']
        refine tmsArm_scanning _ 0 h hv (fun j hj => ?_) hlen
        rw [Nat.add_zero, vectorOf_take_add tms tdi (show 8 * k + j + 1 ≤ n by omega)]
        simp only [List.range_one, List.map_singleton, Nat.add_zero, Nat.zero_add]
        rw [bitAt_of_lt (by omega), bitAt_of_lt (by omega)]
  · rintro _ t ⟨m', ps', ht⟩
    exact ⟨m', ps', ht.nextByte⟩

/-- The scan reaches the end of the vector. -/
theorem usbLoop_scanning {n : Nat} {tms tdi : List Byte} (fuel : Nat)
    (h : Scanning T s0 (vectorOf n tms tdi) k (min n (8 * k)) m ps s) (hv : Vouched T s0 (vectorOf n tms tdi))
    (hf : n ≤ 8 * (k + fuel)) :
    (usbLoop n tms tdi fuel s).Leaves (¬T) (fun _ t => ∃ k', Scanned T s0 (vectorOf n tms tdi) k' n t)
      (Stranded T) := by
  induction fuel generalizing k m ps s with
  | zero =>
    rw [Nat.min_eq_left (by omega)] at h
    exact ⟨k, m, ps, h⟩
  | succ fuel ih =>
    unfold usbLoop
    rw [h.scan]
    split
    · rename_i hk
      rw [Nat.min_eq_right (by omega)] at h
      refine (usbByte_scanning h hv hk).bind ?_
      rintro _ t ⟨m', ps', ht⟩
      exact ih ht (by omega)
    · rw [Nat.min_eq_left (by omega)] at h
      exact ⟨k, m, ps, h⟩

/-- Between calls: nothing in the stream, the levels agreeing, no batch (R33, R34, R50), and parameters that make sense. -/
structure Settled (s : State) : Prop where
  wf : s.cfg.wellFormed = true
  queue : s.usb.cmdq = []
  levels : HostLevel s.usbHost s.usb.tms
  out : s.usbHost.out = []
  desc : s.usbHost.desc = []

theorem levelsAgree_iff : s.levelsAgree = true ↔ HostLevel s.usbHost s.usb.tms := by
  simp [State.levelsAgree, HostLevel]

theorem Settled.levelOk (h : Settled s) : s.levelOk = true := by
  simp [State.levelOk, h.queue, levelsAgree_iff.2 h.levels, h.out, h.desc]

/-- `UsbShift` on a settled state: a settled state again, or a host stuck in a read. Where `T` vouches for the transfers
and the cycles, it is not stuck, and gives the capture of the cycles and the target they leave (R245). -/
theorem usbShift_leaves {n : Nat} {tms tdi : List Byte} (hw : s.cfg.wellFormed = true) (hq : s.usb.cmdq = [])
    (hl : HostLevel s.usbHost s.usb.tms) (hv : Vouched T s (vectorOf n tms tdi))
    (hT : T → s.usb.rspq = [] ∧ s.transfersOk) :
    (usbShift n tms tdi s).Leaves (¬T)
      (fun cap t => Settled t ∧ t.host = HostSeq.idle ∧ (T → ∃ bits u,
        clockAll (s.usbPoint s.usbHost.edge) (vectorOf n tms tdi) s = .ok bits u ∧ cap = packBits bits ∧
        t.target = u.target ∧ t.draws = u.draws ∧ t.usb.rspq = [] ∧ t.usb.div = s.usb.div ∧
        t.usbHost.edge = s.usbHost.edge ∧ t.mmio = s.mmio ∧ t.shadow = s.shadow ∧
        t.env = { s.env with delivery := t.env.delivery, writes := t.env.writes }))
      (Stranded T) := by
  have start : Scanning T s (vectorOf n tms tdi) 0 (min n (8 * 0)) 0 []
      ((s.setUsbHost { s.usbHost with out := [], desc := [], run := none }).setHost
        { HostSeq.idle with tdoBuf := List.replicate (bytesFor n) 0 }) := by
    rw [Nat.mul_zero, Nat.min_eq_right (by omega)]
    refine ⟨hw, hq, UsbHost.holds_nil _ _ rfl rfl rfl, hl, rfl, Nat.zero_le _, Nat.zero_le _, trivial, rfl, fun h => ?_⟩
    obtain ⟨hr, ht⟩ := hT h
    refine ⟨⟨[], s, rfl, rfl, rfl, ?_⟩, hr, ht, rfl, rfl, rfl, rfl, rfl⟩
    rw [vectorOf_length]
    exact captured_nil n
  refine (usbLoop_scanning _ start hv (by rw [bytesFor]; omega)).bind ?_
  rintro _ t ⟨k', m', ps', ht⟩
  refine (usbFlush_scanning ht hv).bind ?_
  rintro _ u ⟨hu, he⟩
  refine ⟨⟨hu.wf, hu.queue, hu.level, ?_, ?_⟩, rfl, fun h => ?_⟩
  · show u.usbHost.out = []
    rw [he]
  · show u.usbHost.desc = []
    rw [he]
  · have f := hu.flushed h
    obtain ⟨bits, w, hc, htarget, hdraws, hcap⟩ := f.clocked
    rw [List.take_of_length_le (by simp)] at hc
    rw [vectorOf_length] at hcap
    have hlen : bits.length = n := by rw [(clockAll_eq_ok hc).2, vectorOf_length]
    exact ⟨bits, w, hc, hcap.eq_packBits hlen, htarget, hdraws, f.rspq, f.div, f.edge, f.mmio, f.shadow, f.env⟩

end Sys2Proof.Machine
end

section
/-! ## The TMS levels between calls (O53)

Every operation that starts between calls (`Settled`) ends there, or leaves the host stuck with the levels agreeing. -/

namespace Sys2Proof.Machine

variable {s t : State}

/-- A part of an operation ends between calls, or leaves the host stuck with the levels agreeing. -/
def Res.settles {α : Type} (x : Res α) : Prop := x.Leaves True (fun _ => Settled) (fun t => t.levelOk = true)

theorem Res.settles_bind {α β : Type} {x : Res α} {f : α → State → Res β} (h : x.settles)
    (k : ∀ a t, Settled t → (f a t).settles) : (x.bind f).settles :=
  Res.Leaves.bind h k

/-- What the invariant speaks of is the same in both. -/
theorem Settled.of_eq (h : Settled s) (hc : t.cfg = s.cfg) (hu : t.usb = s.usb) (hh : t.usbHost = s.usbHost) :
    Settled t :=
  ⟨hc ▸ h.wf, hu ▸ h.queue, hu ▸ hh ▸ h.levels, hh ▸ h.out, hh ▸ h.desc⟩

/-- The moves at `false` touch neither side of the USB backend. -/
theorem Move.settled (m : Move false s t) (h : Settled s) : Settled t := by
  cases m
  all_goals exact h.of_eq rfl rfl rfl

theorem Res.settles_of_moves {α : Type} {x : Res α} (h : Settled s) (m : x.moves false s) : x.settles :=
  m.mono (fun _ _ k => k.keep (fun _ _ => Move.settled) h) fun _ k =>
    (k.keep (fun _ _ => Move.settled) h).levelOk

/-! ### The adapter's commands -/

/-- Pieces that leave the level as it is. -/
theorem runPieces_settles (h : Settled s) (e : Bool) {ps : List Piece} (hl : levelAfter s.usb.tms ps = s.usb.tms) :
    (runPieces e ps s).settles := by
  refine (runPieces_leaves (T := False) False.elim).mono ?_ (fun _ => False.elim) fun _ => trivial
  rintro _ _ ⟨bits, u, hc, rfl⟩
  have eu := (clockAll_eq_ok hc).1
  have ecfg : u.cfg = s.cfg := by rw [eu]; rfl
  have euh : u.usbHost = s.usbHost := by rw [eu]; rfl
  refine ⟨ecfg ▸ h.wf, (Usb.ran_cmdq _ _ _).trans h.queue, ?_, euh ▸ h.out, euh ▸ h.desc⟩
  rw [State.setUsb_usbHost, State.setUsb_usb, euh, Usb.ran_tms, hl]
  exact h.levels

theorem levelAfter_bytes (l : Bool) (d : List Byte) : levelAfter l (d.map .byte) = l := by
  induction d with
  | nil => rfl
  | cons x d ih => exact ih

theorem adapterByteShift_settles (h : Settled s) (e : Bool) (d : List Byte) : (adapterByteShift e d s).settles := by
  rw [adapterByteShift_eq]
  exact runPieces_settles h e (levelAfter_bytes _ d)

theorem adapterBitShift_settles (h : Settled s) (e : Bool) (r : Nat) (d : Byte) :
    (adapterBitShift e r d s).settles := by
  rw [adapterBitShift_eq, ← runPieces_singleton]
  exact runPieces_settles h e rfl

/-- The host's copy follows the level that the command leaves (R226). -/
theorem adapterTmsShift_settles (h : Settled s) (e : Bool) (r : Nat) (b : Byte) :
    (adapterTmsShift e r b (s.setUsbHost { s.usbHost with tmsLevel := some (b.getLsbD (r - 1)) })).settles := by
  refine ((clockAll_leaves (T := False) False.elim).mono (fun _ _ h => h) (fun _ => False.elim) fun _ => trivial).bind
    fun bits u hc => ?_
  have eu := (clockAll_eq_ok hc).1
  have ecfg : u.cfg = s.cfg := by rw [eu]; rfl
  have euh : u.usbHost = { s.usbHost with tmsLevel := some (b.getLsbD (r - 1)) } := by rw [eu]; rfl
  have eusb : u.usb = s.usb := by rw [eu]; rfl
  exact ⟨ecfg ▸ h.wf, (congrArg Usb.cmdq eusb).trans h.queue, .inr (congrArg UsbHost.tmsLevel euh),
    (congrArg UsbHost.out euh).trans h.out, (congrArg UsbHost.desc euh).trans h.desc⟩

theorem usbFlush_settles (h : Settled s) : (usbFlush s).settles := by
  have e : usbFlush s = .ok () (s.setUsbHost { s.usbHost with run := none }) := by
    unfold usbFlush
    exact if_pos h.desc
  rw [e]
  exact ⟨h.wf, h.queue, h.levels, h.out, h.desc⟩

/-- A divisor command, written to an empty stream, sets the adapter's divisor (R225). -/
theorem usbWrite_setDivisor (hw : s.cfg.wellFormed = true) (hq : s.usb.cmdq = []) (div : Half) :
    usbWrite (encodeCommand s.cfg (.uSetDivisor div)) s =
      (usbAccept s).bind fun _ t => .ok () (t.setUsb { t.usb with div := div }) := by
  refine Res.bind_congr_ok fun _ t ht => ?_
  obtain ⟨-, rfl⟩ := usbAccept_eq_ok.1 ht
  obtain ⟨k, hk⟩ : ∃ k, (encodeCommand s.cfg (.uSetDivisor div)).length = k + 1 := ⟨2, rfl⟩
  have hd := decodeCommand_setDivisor hw div []
  rw [List.append_nil] at hd
  simp only [State.setEnv_usb, hq, List.nil_append, hk, adapterRun, State.setUsb_usb, State.setUsb_cfg,
    State.setEnv_cfg, hd, adapterExec, adapterSetDivisor, Res.bind_ok]
  rw [adapterRun_of_empty k rfl]
  rw [← hq]
  rfl

/-! ### Operations of the contract and probes -/

theorem shift_settles (h : Settled s) (n : Int) (buf : List Byte) : (shift n buf s).settles := by
  refine (needHandle_post s).look fun hd _ => ?_
  split
  · trivial
  · split
    · exact h
    · cases hd with
      | mmio i => exact Res.settles_of_moves h (mmioShift_moves false _ _ _ s)
      | usb a =>
        exact (usbShift_leaves (T := False) h.wf h.queue h.levels False.elim False.elim).mono (fun _ _ k => k.1)
          (fun _ k => k.2) fun _ => trivial

theorem setClockDivisor_settles (h : Settled s) (v : Int) : (setClockDivisor v s).settles := by
  refine (needHandle_post s).look fun hd _ => ?_
  cases hd with
  | mmio i =>
    dsimp only
    split
    · exact Res.settles_of_moves h (raise_moves false _ s)
    · exact Res.settles_of_moves h (mmioWrite_moves fun hb => .clkdiv s _ hb (toNat_ofNat_le_of_le ‹_›))
  | usb a =>
    have h' : Settled (s.setUsb { s.usb with div := BitVec.ofNat 16 (clampNat v s.cfg.usbDivMax) }) :=
      ⟨h.wf, h.queue, h.levels, h.out, h.desc⟩
    have ha := usbAccept_leaves (T := False) (s := s.setUsb { s.usb with div := BitVec.ofNat 16 (clampNat v s.cfg.usbDivMax) }) False.elim
    have hw := usbWrite_setDivisor h'.wf h'.queue (BitVec.ofNat 16 (clampNat v s.cfg.usbDivMax))
    refine (congrArg Res.settles hw).mpr ((ha.mono (fun _ _ h => h) (fun _ => False.elim) fun _ => trivial).bind ?_)
    rintro _ _ ⟨w, rfl, -⟩
    exact ⟨h.wf, h.queue, h.levels, h.out, h.desc⟩

theorem setTimingParam_settles (h : Settled s) (v : Int) : (setTimingParam v s).settles := by
  refine (needHandle_post s).look fun hd _ => ?_
  cases hd with
  | mmio i =>
    dsimp only
    split
    · exact Res.settles_of_moves h (raise_moves false _ s)
    · exact Res.settles_of_moves h (mmioWrite_moves fun hb => .delay s _ hb (toNat_ofNat_le_of_le ‹_›))
  | usb a => exact ⟨h.wf, h.queue, h.levels, h.out, h.desc⟩

theorem shiftPairs_settles (h : Settled s) (v : List (Bool × Bool)) : (shiftPairs v s).settles := shift_settles h _ _

theorem scanChain_settles (h : Settled s) : (scanChain s).settles :=
  Res.settles_bind (shiftPairs_settles h _) fun _ _ h => h

theorem probeIdcode_settles (h : Settled s) : (probeIdcode s).settles :=
  (needHandle_post s).look fun _ _ => (needIdentity_post s).look fun _ _ =>
    Res.settles_bind (shiftPairs_settles h _) fun _ _ h => h

theorem probeBypassVec_settles (h : Settled s) (values : List Word) : (probeBypassVec values s).settles := by
  refine (needHandle_post s).look fun _ _ => (needIdentity_post s).look fun _ _ => ?_
  split
  · trivial
  · exact Res.settles_bind (shiftPairs_settles h _) fun _ _ h =>
      Res.settles_bind (shiftPairs_settles h _) fun _ _ h => h

theorem detectSweep_settles (tps : List Nat) (h : Settled s) : (detectSweep tps s).settles := by
  induction tps generalizing s with
  | nil => exact Res.settles_of_moves h (raise_moves false _ s)
  | cons tp rest ih =>
    refine Res.settles_bind (setTimingParam_settles h _) fun _ s1 h1 => ?_
    refine Res.settles_bind (scanChain_settles h1) fun _ s2 h2 => ?_
    split
    · exact ⟨h2.wf, h2.queue, h2.levels, h2.out, h2.desc⟩
    · exact ih h2

theorem detect_settles (h : Settled s) : (detect s).settles := by
  refine (needHandle_post s).look fun _ _ => ?_
  split
  · exact h
  · exact Res.settles_bind (setClockDivisor_settles h _) fun _ _ h => detectSweep_settles _ h

theorem openTransport_settles (h : Settled s) (p : OpenParams) : (openTransport p s).settles := by
  unfold openTransport
  split
  · trivial
  · split
    · exact ⟨h.wf, rfl, .inl rfl, rfl, rfl⟩
    · trivial

/-! ### Every operation, and the step -/

/-- The result of an operation is no matter of the levels. -/
theorem Res.settles_out {α : Type} {x : Res α} {g : α → Ret} (h : x.settles)
    (e : x.out (fun a u => u.setRet (g a)) = .next t) : t.levelOk = true :=
  Res.Leaves.out (g := fun a u => u.setRet (g a)) h (fun _ _ k => (k.of_eq rfl rfl rfl).levelOk) e

theorem exec_levelOk (h : Settled s) {i : Instr} (e : exec i s = .next t) : t.levelOk = true := by
  cases hm : mayMoveUsb i with
  | false =>
    have m := exec_moves i e
    rw [hm] at m
    exact (m.keep (fun _ _ => Move.settled) h).levelOk
  | true =>
    cases i
    case tOpen p => exact Res.settles_out (openTransport_settles h p) e
    case tShift n buf => exact Res.settles_out (shift_settles h n buf) e
    case tSetClockDivisor v => exact Res.settles_out (setClockDivisor_settles h v) e
    case tSetTimingParam v => exact Res.settles_out (setTimingParam_settles h v) e
    case uByteShift b d =>
      exact Res.settles_out ((needUsb_post s).look fun _ _ => adapterByteShift_settles h b d) e
    case uBitShift b r d =>
      exact Res.settles_out ((needUsb_post s).look fun _ _ => adapterBitShift_settles h b r d) e
    case uTmsShift b r d =>
      refine Res.settles_out (g := fun _ => .none) ?_ e
      exact (needUsb_post s).look fun _ _ => adapterTmsShift_settles h b r d
    case uSetDivisor div =>
      have hd : Settled (s.setUsb { s.usb with div := div }) := ⟨h.wf, h.queue, h.levels, h.out, h.desc⟩
      refine Res.settles_out (g := fun _ => .none) ?_ e
      exact (needUsb_post s).look fun _ _ => hd
    case uFlush => exact Res.settles_out ((needUsb_post s).look fun _ _ => usbFlush_settles h) e
    case pProbeIdcode => exact Res.settles_out (probeIdcode_settles h) e
    case pScanChain => exact Res.settles_out (scanChain_settles h) e
    case pDetect => exact Res.settles_out (detect_settles h) e
    case pProbeBypass v => exact Res.settles_out (probeBypassVec_settles h [v]) e
    case pProbeBypassVec vs => exact Res.settles_out (probeBypassVec_settles h vs) e
    all_goals cases hm

theorem Settled.setCalls (h : Settled s) (rest : List Byte) : Settled (s.setCalls rest) := h.of_eq rfl rfl rfl

theorem hostTurn_levelOk (h : Settled s) (e : hostTurn s = .next t) : t.levelOk = true := by
  obtain rfl | ⟨i, rest, e⟩ | ⟨rest, e⟩ | ⟨rest, rfl⟩ := hostTurn_cases e
  · exact h.levelOk
  · exact exec_levelOk (h.setCalls rest) e
  · exact Res.settles_out
      (Res.settles_of_moves (h.setCalls rest) (mmioReadBack_moves false _)) e
  · exact (h.setCalls rest).levelOk

/-- With an empty stream only the sequencer moves in the devices' turn. -/
theorem deviceTurn_settles (h : Settled s) : (deviceTurn s).settles := by
  refine Res.settles_bind (Res.settles_of_moves h (engineTurn_moves false s)) fun _ t ht => ?_
  split
  · rw [adapterRun_of_empty _ ht.queue]
    exact ht
  · exact ht

/-- Where the host is able to go on, `levelOk` says that it is between calls. -/
theorem settled_of_levelOk (hw : s.cfg.wellFormed = true) (h : s.levelOk = true) (hp : s.host.phase = .ready) :
    Settled s := by
  simp only [State.levelOk, hp, Bool.and_eq_true, Bool.or_eq_true, decide_eq_true_eq, reduceCtorEq, false_or] at h
  obtain ⟨⟨hq, hl⟩, ho, hd⟩ := h
  exact ⟨hw, hq, levelsAgree_iff.1 hl, ho, hd⟩

/-- Settles O53. -/
theorem tmsLevelKept : Obligations.TmsLevelKept := by
  intro s t hw hs e
  obtain rfl | ⟨hp, hd⟩ := step_cases e
  · exact hs
  · have d := deviceTurn_settles (settled_of_levelOk hw hs hp)
    obtain hd | ⟨u, hd, hu⟩ := hd
    · rw [hd] at d
      exact d
    · rw [hd] at d
      exact hostTurn_levelOk d hu

end Sys2Proof.Machine
end

section
/-! ## One chunk of the MMIO sequencer

From a just started sequencer on, at whatever pace it moves: the cycles done so far, their samples at the top of TDO
(R191), and the host's poll until the chunk is done (R196). -/

namespace Sys2Proof.Machine

/-- The cycles of the chunk that LENGTH, TMS and TDI hold (R191). -/
def Mmio.chunkCycles (m : Mmio) : List (Bool × Bool) :=
  (List.range m.length.toNat).map fun k => (m.tms.getLsbD k, m.tdi.getLsbD k)

theorem Mmio.chunkCycles_length (m : Mmio) : m.chunkCycles.length = m.length.toNat := by simp [Mmio.chunkCycles]

theorem Mmio.chunkCycles_take_succ (m : Mmio) {c : Nat} (h : c < m.length.toNat) :
    m.chunkCycles.take (c + 1) = m.chunkCycles.take c ++ [(m.tms.getLsbD c, m.tdi.getLsbD c)] := by
  simp [Mmio.chunkCycles, ← List.map_take, List.take_range, Nat.min_eq_left (Nat.succ_le_of_lt h),
    Nat.min_eq_left (Nat.le_of_lt h), List.range_succ]

/-- `s` is the state in which the sequencer started at `s0` has done `count` cycles, at some pace and with some reads of
STATUS between them. -/
structure Running (s0 : State) (count : Nat) (busy : Bool) (s : State) : Prop where
  count_le : count ≤ s0.mmio.length.toNat
  done : busy = false → count = s0.mmio.length.toNat
  state : ∃ bits u pace reads, clockAll s0.mmioPoint (s0.mmio.chunkCycles.take count) s0 = .ok bits u ∧
    s = ((u.setMmio { s0.mmio with tdo := pushWords s0.mmio.tdo bits, busy := busy, count := count }).setEnv
      { s0.env with pace := pace }).setStatusReads reads

variable {s0 s : State} {c : Nat} {b : Bool}

theorem Running.start (h : s0.mmio.busy = true) (hc : s0.mmio.count = 0) : Running s0 0 true s0 := by
  refine ⟨Nat.zero_le _, nofun, [], s0, s0.env.pace, s0.statusReads, rfl, ?_⟩
  have e : s0.mmio = { s0.mmio with tdo := pushWords s0.mmio.tdo [], busy := true, count := 0 } := by
    rw [← h, ← hc]; rfl
  rw [← e]
  rfl

theorem Running.mmio (h : Running s0 c b s) :
    s.mmio.busy = b ∧ s.mmio.count = c ∧ s.mmio.length = s0.mmio.length ∧ s.mmio.tms = s0.mmio.tms ∧
      s.mmio.tdi = s0.mmio.tdi ∧ s.mmioPoint = s0.mmioPoint := by
  obtain ⟨bits, u, pace, reads, -, rfl⟩ := h.state
  exact ⟨rfl, rfl, rfl, rfl, rfl, rfl⟩

theorem Running.frame (h : Running s0 c b s) :
    s.cfg = s0.cfg ∧ s.handle = s0.handle ∧ s.env = { s0.env with pace := s.env.pace } := by
  obtain ⟨bits, u, pace, reads, hc, rfl⟩ := h.state
  have eu := (clockAll_eq_ok hc).1
  exact ⟨by rw [eu]; rfl, by rw [eu]; rfl, rfl⟩

/-- The pace list and the reads of STATUS are free. -/
theorem Running.setPace (h : Running s0 c b s) (pace : List Nat) :
    Running s0 c b (s.setEnv { s.env with pace := pace }) := by
  obtain ⟨bits, u, _, reads, hc, rfl⟩ := h.state
  exact ⟨h.count_le, h.done, bits, u, pace, reads, hc, rfl⟩

theorem Running.setStatusReads (h : Running s0 c b s) (reads : Nat) : Running s0 c b (s.setStatusReads reads) := by
  obtain ⟨bits, u, pace, _, hc, rfl⟩ := h.state
  exact ⟨h.count_le, h.done, bits, u, pace, reads, hc, rfl⟩

/-- One more cycle (R191). -/
theorem Running.tick (h : Running s0 c true s) (hc : c < s0.mmio.length.toNat)
    (hall : ∃ bits u, clockAll s0.mmioPoint s0.mmio.chunkCycles s0 = .ok bits u) :
    ∃ t, engineTick s = .ok () t ∧ Running s0 (c + 1) true t ∧ t.env.pace = s.env.pace := by
  obtain ⟨-, hcount, hlength, htms, htdi, hpoint⟩ := h.mmio
  obtain ⟨bits, u, pace, reads, hu, es⟩ := h.state
  obtain ⟨allBits, w, hall⟩ := hall
  rw [← List.take_append_drop (c + 1) s0.mmio.chunkCycles, Mmio.chunkCycles_take_succ _ hc] at hall
  obtain ⟨_, v, _, hv, -, -⟩ := clockAll_append_ok hall
  obtain ⟨_, _, new, h1, h2, -⟩ := clockAll_append_ok hv
  rw [hu] at h1
  cases h1
  rw [clockAll_singleton] at h2
  obtain ⟨x, v', hx, h2⟩ := Res.bind_eq_ok.1 h2
  cases h2
  have ev : u.env = s0.env := by rw [(clockAll_eq_ok hu).1]; rfl
  have ev' := clock_eq_ok hx
  have wire : SameWire s0.mmioPoint u s.mmioPoint s := by
    rw [hpoint, es]
    exact ⟨by simp only [State.setStatusReads_env, State.setEnv_env, ev]; rfl, rfl, rfl⟩
  refine ⟨((s.setDraws v.draws).setTarget v.target).setMmio
    { s.mmio with tdo := pushWord x s.mmio.tdo, count := s.mmio.count + 1 }, ?_, ⟨hc, nofun, bits ++ [x], v, pace, reads, ?_, ?_⟩, rfl⟩
  · have hx' : clock s.mmioPoint (s.mmio.tms.getLsbD s.mmio.count) (s.mmio.tdi.getLsbD s.mmio.count) s =
        .ok x ((s.setDraws v.draws).setTarget v.target) := by
      rw [hcount, htms, htdi]
      exact wire.clock hx
    rw [engineTick, if_pos (by rw [hcount, hlength]; exact hc), hx']
    rfl
  · rw [Mmio.chunkCycles_take_succ _ hc]
    exact clockAll_append_of_ok hu (by rw [clockAll_singleton, hx]; rfl)
  · have hpush : pushWords s0.mmio.tdo (bits ++ [x]) = pushWord x (pushWords s0.mmio.tdo bits) := by
      simp [pushWords, List.foldl_append]
    rw [hpush, es, ev']
    rfl

/-- The end of the chunk: busy is cleared (R191). -/
theorem Running.tick_end (h : Running s0 s0.mmio.length.toNat true s) :
    ∃ t, engineTick s = .ok () t ∧ Running s0 s0.mmio.length.toNat false t ∧ t.env.pace = s.env.pace := by
  obtain ⟨-, hcount, hlength, -⟩ := h.mmio
  refine ⟨s.setMmio s.mmio.clearBusy, ?_, ⟨h.count_le, fun _ => rfl, ?_⟩, rfl⟩
  · unfold engineTick
    rw [hcount, hlength, if_neg (Nat.lt_irrefl _)]
  · obtain ⟨bits, u, pace, reads, hu, rfl⟩ := h.state
    exact ⟨bits, u, pace, reads, hu, rfl⟩

/-- How many moves the sequencer still makes: a cycle each, and one to clear busy. -/
def movesLeft (s0 : State) (c : Nat) (b : Bool) : Nat := if b then s0.mmio.length.toNat - c + 1 else 0

theorem Running.ticks (k : Nat) (h : Running s0 c b s)
    (hall : ∃ bits u, clockAll s0.mmioPoint s0.mmio.chunkCycles s0 = .ok bits u) :
    ∃ t c' b', engineTicks k s = .ok () t ∧ Running s0 c' b' t ∧ t.env.pace = s.env.pace ∧
      movesLeft s0 c' b' = movesLeft s0 c b - k := by
  induction k generalizing s c b with
  | zero => exact ⟨s, c, b, rfl, h, rfl, rfl⟩
  | succ k ih =>
    cases b with
    | false =>
      refine ⟨s, c, false, ?_, h, rfl, by simp [movesLeft]⟩
      rw [engineTicks, h.mmio.1]
      rfl
    | true =>
      have step : ∃ t c' b', engineTick s = .ok () t ∧ Running s0 c' b' t ∧ t.env.pace = s.env.pace ∧
          movesLeft s0 c' b' = movesLeft s0 c true - 1 := by
        by_cases hc : c < s0.mmio.length.toNat
        · obtain ⟨t, e, ht, hp⟩ := h.tick hc hall
          exact ⟨t, c + 1, true, e, ht, hp, by simp [movesLeft]; omega⟩
        · obtain rfl : c = s0.mmio.length.toNat := Nat.le_antisymm h.count_le (Nat.le_of_not_lt hc)
          obtain ⟨t, e, ht, hp⟩ := h.tick_end
          exact ⟨t, _, false, e, ht, hp, by simp [movesLeft]⟩
      obtain ⟨t, c1, b1, e1, h1, p1, m1⟩ := step
      obtain ⟨u, c2, b2, e2, h2, p2, m2⟩ := ih h1
      refine ⟨u, c2, b2, ?_, h2, p2.trans p1, by omega⟩
      rw [engineTicks, if_pos h.mmio.1, e1, Res.bind_ok, e2]

/-- As many moves as are left finish the chunk. -/
theorem Running.eq_end_of_movesLeft (h : Running s0 c b s) (hm : movesLeft s0 c b = 0) :
    Running s0 s0.mmio.length.toNat false s := by
  cases b with
  | true => simp [movesLeft] at hm
  | false => exact h.done rfl ▸ h

theorem Running.finish (h : Running s0 c b s)
    (hall : ∃ bits u, clockAll s0.mmioPoint s0.mmio.chunkCycles s0 = .ok bits u) :
    ∃ t, engineFinish s = .ok () t ∧ Running s0 s0.mmio.length.toNat false t ∧ t.env.pace = s.env.pace := by
  obtain ⟨-, hcount, hlength, -⟩ := h.mmio
  obtain ⟨t, c', b', e, ht, hp, hm⟩ := h.ticks (s.mmio.length.toNat - s.mmio.count + 1) hall
  refine ⟨t, e, ht.eq_end_of_movesLeft ?_, hp⟩
  rw [hm, hcount, hlength]
  cases b <;> simp [movesLeft]

/-- A read of STATUS shows whether the chunk is done (R25, R196). -/
theorem Running.status (h : Running s0 c b s) (hh : ∃ i, s0.handle = some (.mmio i)) (hmask : s0.cfg.statusBusy ≠ 0) :
    ∃ v t, mmioStatus s = .ok v t ∧ Running s0 c b t ∧ t.env.pace = s.env.pace ∧ showsBusy t.cfg.statusBusy v = b := by
  obtain ⟨hcfg, hhandle, -⟩ := h.frame
  refine ⟨_, _, mmioStatus_eq_ok.2 ⟨hhandle ▸ hh, rfl, rfl⟩, h.setStatusReads _, rfl, ?_⟩
  rw [h.mmio.1, State.setStatusReads_cfg, hcfg]
  exact showsBusy_statusValue hmask

/-- The busy-poll ends when the chunk is done, at whatever pace, if the sequencer goes on and the poll has no bound or one
above the looks to come (R196, R204). -/
theorem Running.poll (pace : List Nat) (polls : Nat) (h : Running s0 c b s) (hh : ∃ i, s0.handle = some (.mmio i))
    (hmask : s0.cfg.statusBusy ≠ 0) (halive : s0.env.engineAlive = true)
    (hlimit : s0.cfg.pollLimit = 0 ∨ polls + pace.length < s0.cfg.pollLimit) (hp : s.env.pace = pace)
    (hall : ∃ bits u, clockAll s0.mmioPoint s0.mmio.chunkCycles s0 = .ok bits u) :
    ∃ t, busyPoll pace polls s = .ok () t ∧ Running s0 s0.mmio.length.toNat false t ∧
      t.env.pace.length ≤ pace.length := by
  induction pace generalizing polls s c b with
  | nil =>
    obtain ⟨-, -, henv⟩ := h.frame
    obtain ⟨t, e, ht, hpt⟩ := h.finish hall
    obtain ⟨v, u, e', hu, hpu, -⟩ := ht.status hh hmask
    refine ⟨u, ?_, hu, by rw [hpu, hpt, hp]⟩
    have ha : s.env.engineAlive = true := by rw [henv]; exact halive
    rw [busyPoll, if_pos ha, e, Res.bind_ok, e', Res.bind_ok]
  | cons k rest ih =>
    obtain ⟨t, c', b', e, ht, hpt, -⟩ := (h.setPace rest).ticks k hall
    obtain ⟨v, u, e', hu, hpu, hshow⟩ := ht.status hh hmask
    have hpr : u.env.pace = rest := hpu.trans hpt
    rw [busyPoll, e, Res.bind_ok, e', Res.bind_ok, hshow]
    cases b' with
    | false =>
      obtain rfl := hu.done rfl
      exact ⟨u, rfl, hu, by rw [hpr]; simp⟩
    | true =>
      have hno : ¬(0 < u.cfg.pollLimit ∧ u.cfg.pollLimit ≤ polls + 1) := by
        rw [hu.frame.1]
        simp only [List.length_cons] at hlimit
        omega
      obtain ⟨w, ew, hw, hpw⟩ := ih (polls + 1) hu (by simp only [List.length_cons] at hlimit; omega) hpr
      refine ⟨w, ?_, hw, by simp only [List.length_cons]; omega⟩
      rw [if_pos rfl, if_neg hno, ew]

end Sys2Proof.Machine
end

section
/-! ## The chunk loop

`MmioShift` clocks its vector 32 cycles at a time and captures what `ShiftSpec` captures (R193, R203). -/

namespace Sys2Proof.Machine

/-! ### The capture of one chunk -/

theorem wordByte_getLsbD (w : Word) {i j : Nat} (hj : j < 8) : (wordByte w i).getLsbD j = w.getLsbD (8 * i + j) := by
  rw [wordByte, BitVec.getLsbD_setWidth, BitVec.getLsbD_ushiftRight]
  simp [hj]

/-- The bytes of `setBytes`: the new ones at their place, the others as they were. -/
theorem setBytes_getD {buf bytes : List Byte} {i : Nat} (h : i + bytes.length ≤ buf.length) (j : Nat) :
    (setBytes buf i bytes).getD j 0 = if i ≤ j ∧ j < i + bytes.length then bytes.getD (j - i) 0 else buf.getD j 0 := by
  have hlen : (buf.take i).length = i := by rw [List.length_take]; omega
  have hfull : (buf.take i ++ bytes ++ buf.drop (i + bytes.length)).length = buf.length := by simp; omega
  rw [setBytes, List.take_of_length_le (Nat.le_of_eq hfull), List.append_assoc]
  simp only [List.getD_eq_getElem?_getD]
  by_cases h1 : j < i
  · rw [List.getElem?_append_left (by omega), List.getElem?_take_of_lt h1, if_neg (by omega)]
  · rw [List.getElem?_append_right (by omega), hlen]
    by_cases h2 : j < i + bytes.length
    · rw [List.getElem?_append_left (by omega), if_pos (by omega)]
    · rw [List.getElem?_append_right (by omega), List.getElem?_drop, if_neg (by omega)]
      congr 2
      omega

theorem setBytes_length {buf bytes : List Byte} {i : Nat} (h : i + bytes.length ≤ buf.length) :
    (setBytes buf i bytes).length = buf.length := by
  simp [setBytes]
  omega

/-- The aligned word of a chunk, put into its bytes, adds the chunk's samples to the capture (R193, R197). -/
theorem Captured.set_word {n a : Nat} {buf : List Byte} {bits new : Bits} {w : Word} (h : Captured n buf bits)
    (ha : bits.length = 8 * a) (hn : 8 * a + new.length ≤ n) (hw : ∀ j, w.getLsbD j = new.getD j false) :
    Captured n (setBytes buf a ((List.range (bytesFor new.length)).map (wordByte w))) (bits ++ new) := by
  obtain ⟨hlen, hbits⟩ := h
  have hfit : a + ((List.range (bytesFor new.length)).map (wordByte w)).length ≤ buf.length := by
    rw [hlen]
    simp only [bytesFor, List.length_map, List.length_range]
    omega
  refine ⟨(setBytes_length hfit).trans hlen, fun i => ?_⟩
  have hold := hbits i
  rw [bitAt] at hold ⊢
  rw [setBytes_getD hfit, getD_append_bits, ha]
  simp only [List.length_map, List.length_range]
  by_cases hi : a ≤ i / 8 ∧ i / 8 < a + bytesFor new.length
  · have hb : ((List.range (bytesFor new.length)).map (wordByte w)).getD (i / 8 - a) 0 = wordByte w (i / 8 - a) := by
      have : i / 8 - a < bytesFor new.length := by omega
      simp [List.getD_eq_getElem?_getD, this]
    rw [if_pos hi, hb, wordByte_getLsbD _ (Nat.mod_lt _ (by omega)), hw, if_neg (by omega)]
    congr 1
    omega
  · rw [if_neg hi, hold]
    split
    · rfl
    · have hpast : a + bytesFor new.length ≤ i / 8 := by omega
      rw [bytesFor] at hpast
      rw [List.getD_eq_default _ _ (by omega), List.getD_eq_default _ _ (by omega)]

/-- The cycles of a chunk word are the next cycles of the vector (R61, R193). -/
theorem chunkCycles_chunkWord {m : Mmio} {tms tdi : List Byte} {a len : Nat} (hlen : len ≤ 32)
    (hl : m.length.toNat = len) (ht : m.tms = chunkWord tms a (bytesFor len))
    (hd : m.tdi = chunkWord tdi a (bytesFor len)) :
    m.chunkCycles = (List.range len).map fun j => (bitAt tms (8 * a + j), bitAt tdi (8 * a + j)) := by
  rw [Mmio.chunkCycles, hl, ht, hd]
  refine List.map_congr_left fun j hj => ?_
  rw [List.mem_range] at hj
  have hb : j < 8 * bytesFor len := by rw [bytesFor]; omega
  rw [chunkWord_getLsbD hb (by omega), chunkWord_getLsbD hb (by omega)]

/-! ### A chunk from its start to its read-back -/

/-- `s5` is the state after the chunk started at `s4`, whose cycles sampled `bits` and left the wire as in `u`. -/
structure ChunkDone (s4 : State) (bits : Bits) (u s5 : State) : Prop where
  mmio : s5.mmio = { s4.mmio with tdo := pushWords s4.mmio.tdo bits, busy := false, count := s4.mmio.length.toNat }
  target : s5.target = u.target
  draws : s5.draws = u.draws
  host : s5.host = s4.host
  shadow : s5.shadow = s4.shadow
  cfg : s5.cfg = s4.cfg
  handle : s5.handle = s4.handle
  env : s5.env = { s4.env with pace := s5.env.pace }
  pace : s5.env.pace.length ≤ s4.env.pace.length
  usb : s5.usb = s4.usb
  usbHost : s5.usbHost = s4.usbHost

/-- A chunk that was just started is polled to its end and its TDO read (R191, R196, R197). -/
theorem chunk_completes {s4 u : State} {bits : Bits} (hh : ∃ i, s4.handle = some (.mmio i)) (hb : s4.mmio.busy = true)
    (hc : s4.mmio.count = 0) (hmask : s4.cfg.statusBusy ≠ 0) (halive : s4.env.engineAlive = true)
    (hlimit : s4.cfg.pollLimit = 0 ∨ s4.env.pace.length < s4.cfg.pollLimit)
    (hu : clockAll s4.mmioPoint s4.mmio.chunkCycles s4 = .ok bits u) :
    ∃ s5, busyPoll s4.env.pace 0 s4 = .ok () s5 ∧ mmioTdo s5 = .ok s5.mmio.tdo s5 ∧ ChunkDone s4 bits u s5 := by
  obtain ⟨s5, epoll, h5, hpace⟩ := (Running.start hb hc).poll s4.env.pace 0 hh hmask halive (by omega) rfl ⟨bits, u, hu⟩
  have hidle := h5.mmio.1
  obtain ⟨hcfg, hhandle, henv⟩ := h5.frame
  refine ⟨s5, epoll, mmioTdo_eq_ok.2 ⟨hhandle ▸ hh, hidle, rfl, rfl⟩, ?_⟩
  obtain ⟨bits', u', pace, reads, hu', e⟩ := h5.state
  rw [List.take_of_length_le (by rw [Mmio.chunkCycles_length]), hu] at hu'
  cases hu'
  have eu := (clockAll_eq_ok hu).1
  exact ⟨by rw [e]; rfl, by rw [e]; rfl, by rw [e]; rfl, by rw [e, eu]; rfl, by rw [e, eu]; rfl, hcfg, hhandle, henv, hpace,
    by rw [e, eu]; rfl, by rw [e, eu]; rfl⟩

/-! ### The rounds of the loop -/

/-- A write of the chunk loop leaves register and shadow at the value, elided or not, where an elided one finds both
there (R194). -/
theorem chunkWrite_eq_ok {first same : Bool} {f : Mmio → Mmio} {g : Shadow → Shadow} {s : State}
    (hh : ∃ i, s.handle = some (.mmio i)) (hb : s.mmio.busy = false)
    (he : first = false → same = true → f s.mmio = s.mmio ∧ g s.shadow = s.shadow) :
    chunkWrite first same f g s = .ok () ((s.setMmio (f s.mmio)).setShadow (g s.shadow)) := by
  unfold chunkWrite
  split
  · rename_i hc
    simp only [Bool.and_eq_true, Bool.not_eq_true'] at hc
    obtain ⟨e1, e2⟩ := he hc.1 hc.2
    rw [e1, e2]
    rfl
  · rw [mmioWrite_eq_ok.2 ⟨hh, hb, rfl⟩]
    rfl

/-- A working MMIO engine that can clock all cycles of the vector (R203). -/
structure MmioVouched (s0 : State) (v : List (Bool × Bool)) : Prop where
  handle : ∃ i, s0.handle = some (.mmio i)
  mask : s0.cfg.statusBusy ≠ 0
  alive : s0.env.engineAlive = true
  limit : s0.cfg.pollLimit = 0 ∨ s0.env.pace.length < s0.cfg.pollLimit
  clocked : ∃ bits u, clockAll s0.mmioPoint v s0 = .ok bits u

/-- Between two rounds of the chunk loop begun at `s0`: the first `p` cycles of the vector have been clocked and
captured. -/
structure Chunking (s0 : State) (n : Nat) (tms tdi : List Byte) (first : Bool) (p : Nat) (s : State) : Prop where
  clocked : ∃ bits u, clockAll s0.mmioPoint ((vectorOf n tms tdi).take p) s0 = .ok bits u ∧ s.target = u.target ∧
    s.draws = u.draws ∧ Captured n s.host.tdoBuf bits
  p_le : p ≤ n
  left : s.host.bitsLeft = n - p
  place : p < n → 8 * s.host.byteIdx = p ∧ p % 32 = 0
  idle : s.mmio.busy = false
  clkdiv : s.mmio.clkdiv = s0.mmio.clkdiv
  delay : s.mmio.delay = s0.mmio.delay
  synced : first = false → s.shadow = { len := s.mmio.length, tms := s.mmio.tms, tdi := s.mmio.tdi }
  last : first = false → s.mmio.ctrl = s0.cfg.ctrlStart ∧ s.mmio.length.toNat = p - 32 * ((p - 1) / 32)
  cfg : s.cfg = s0.cfg
  handle : s.handle = s0.handle
  env : s.env = { s0.env with pace := s.env.pace }
  pace : s.env.pace.length ≤ s0.env.pace.length
  usb : s.usb = s0.usb
  usbHost : s.usbHost = s0.usbHost

variable {s0 s : State} {n p : Nat} {tms tdi : List Byte} {first : Bool}

/-- The state in which a chunk starts: operands and shadows written, the strobe given (R193, R195). -/
def State.chunkStart (s : State) (length tms tdi : Word) : State :=
  (s.setMmio { s.mmio with
    length := length, tms := tms, tdi := tdi, ctrl := s.cfg.ctrlStart, busy := true, count := 0 }).setShadow
    { len := length, tms := tms, tdi := tdi }

/-- A round begins its chunk: the three writes and the strobe. -/
theorem Chunking.writes (h : Chunking s0 n tms tdi first p s) (hv : MmioVouched s0 (vectorOf n tms tdi))
    {l t d : Word} (hl : 1 ≤ l.toNat ∧ l.toNat ≤ 32) :
    ((chunkWrite first (decide (l = s.shadow.len)) (fun m => { m with length := l }) (fun x => { x with len := l }) s).bind
      fun _ s1 => (chunkWrite first (decide (t = s1.shadow.tms)) (fun m => { m with tms := t })
        (fun x => { x with tms := t }) s1).bind
      fun _ s2 => (chunkWrite first (decide (d = s2.shadow.tdi)) (fun m => { m with tdi := d })
        (fun x => { x with tdi := d }) s2).bind
      fun _ s3 => mmioStart s3) = .ok () (s.chunkStart l t d) := by
  have hh : ∃ i, s.handle = some (.mmio i) := by rw [h.handle]; exact hv.handle
  have hsync := h.synced
  have e1 := chunkWrite_eq_ok (first := first) (same := decide (l = s.shadow.len)) (f := fun m => { m with length := l })
    (g := fun x => { x with len := l }) (s := s) hh h.idle fun hf hs => by
      have e : l = s.shadow.len := of_decide_eq_true hs
      have e' : l = s.mmio.length := by rw [e, hsync hf]
      exact ⟨by rw [e'], by rw [e]⟩
  rw [e1, Res.bind_ok]
  have e2 := chunkWrite_eq_ok (first := first) (same := decide (t = s.shadow.tms)) (f := fun m => { m with tms := t })
    (g := fun x => { x with tms := t })
    (s := (s.setMmio { s.mmio with length := l }).setShadow { s.shadow with len := l }) hh h.idle fun hf hs => by
      have e : t = s.shadow.tms := of_decide_eq_true hs
      have e' : t = s.mmio.tms := by rw [e, hsync hf]
      exact ⟨by rw [e']; rfl, by rw [e]; rfl⟩
  rw [State.setShadow_shadow, e2, Res.bind_ok]
  have e3 := chunkWrite_eq_ok (first := first) (same := decide (d = s.shadow.tdi)) (f := fun m => { m with tdi := d })
    (g := fun x => { x with tdi := d })
    (s := (s.setMmio { s.mmio with length := l, tms := t }).setShadow { s.shadow with len := l, tms := t }) hh h.idle
    fun hf hs => by
      have e : d = s.shadow.tdi := of_decide_eq_true hs
      have e' : d = s.mmio.tdi := by rw [e, hsync hf]
      exact ⟨by rw [e']; rfl, by rw [e]; rfl⟩
  refine (congrArg (Res.bind · fun _ s3 => mmioStart s3) e3).trans ?_
  exact mmioStart_eq_ok.2 ⟨hh, h.idle, hl, rfl⟩

theorem toNat_ofNat_of_le {len : Nat} (h : len ≤ 32) : (BitVec.ofNat 32 len).toNat = len :=
  (BitVec.toNat_ofNat len 32).trans (Nat.mod_eq_of_lt (by omega))

/-- The chunk that a round starts between `p` and `p + len`. -/
def State.nextChunk (s : State) (tms tdi : List Byte) (len : Nat) : State :=
  s.chunkStart (BitVec.ofNat 32 len) (chunkWord tms s.host.byteIdx (bytesFor len))
    (chunkWord tdi s.host.byteIdx (bytesFor len))

/-- The end of a round: the aligned word goes into the capture (R193, R197). -/
def State.putWord (s : State) (len : Nat) : State :=
  s.setHost { s.host with
    tdoBuf := setBytes s.host.tdoBuf s.host.byteIdx
      ((List.range (bytesFor len)).map (wordByte (alignCapture s.mmio.tdo len)))
    byteIdx := s.host.byteIdx + bytesFor len
    bitsLeft := s.host.bitsLeft - len }

/-- The cycles of the next chunk are the next ones of the vector, and they can be clocked. -/
theorem Chunking.next_clocked (h : Chunking s0 n tms tdi first p s) (hv : MmioVouched s0 (vectorOf n tms tdi))
    (hp : p < n) {len : Nat} (hlen : len = min 32 (n - p)) :
    ∃ bits new u, clockAll s0.mmioPoint ((vectorOf n tms tdi).take (p + len)) s0 = .ok (bits ++ new) u ∧
      clockAll (s.nextChunk tms tdi len).mmioPoint (s.nextChunk tms tdi len).mmio.chunkCycles (s.nextChunk tms tdi len) =
        .ok new (((s.nextChunk tms tdi len).setDraws u.draws).setTarget u.target) ∧
      bits.length = p ∧ new.length = len ∧ Captured n s.host.tdoBuf bits := by
  obtain ⟨hplace, -⟩ := h.place hp
  obtain ⟨bits, u, hu, htarget, hdraws, hcap⟩ := h.clocked
  have hl : (s.nextChunk tms tdi len).mmio.length.toNat = len :=
    toNat_ofNat_of_le (by omega)
  have hcycles : (s.nextChunk tms tdi len).mmio.chunkCycles =
      (List.range len).map fun j => (bitAt tms (p + j), bitAt tdi (p + j)) := by
    rw [chunkCycles_chunkWord (tms := tms) (tdi := tdi) (a := s.host.byteIdx) (by omega) hl rfl rfl, hplace]
  have hseg := vectorOf_take_add (n := n) (p := p) (k := len) tms tdi (by omega)
  rw [← hcycles] at hseg
  obtain ⟨all, w, hall⟩ := hv.clocked
  rw [← List.take_append_drop (p + len) (vectorOf n tms tdi), hseg] at hall
  obtain ⟨_, u2, _, hnext, -, -⟩ := clockAll_append_ok hall
  obtain ⟨_, _, new, h1, h2, rfl⟩ := clockAll_append_ok hnext
  rw [hu] at h1
  cases h1
  have wire : SameWire s0.mmioPoint u (s.nextChunk tms tdi len).mmioPoint (s.nextChunk tms tdi len) := by
    have hpoint : (s.nextChunk tms tdi len).mmioPoint = s0.mmioPoint := by
      simp [State.mmioPoint, State.nextChunk, State.chunkStart, h.clkdiv, h.delay]
    have henv : (s.nextChunk tms tdi len).env.isValid = u.env.isValid := by
      rw [(clockAll_eq_ok hu).1]
      show s.env.isValid = s0.env.isValid
      rw [h.env]
      rfl
    exact ⟨by rw [henv, hpoint], htarget, hdraws⟩
  refine ⟨bits, new, u2, by rw [hseg]; exact hnext, wire.clockAll h2, ?_, ?_, hcap⟩
  · rw [(clockAll_eq_ok hu).2, List.length_take, vectorOf_length]
    omega
  · rw [(clockAll_eq_ok h2).2, Mmio.chunkCycles_length, hl]

/-- The word of the chunk that ended goes to the capture's next bytes: `p + len` cycles are done. -/
theorem Chunking.putWord (h : Chunking s0 n tms tdi first p s) (hp : p < n) {len : Nat} (hlen : len = min 32 (n - p))
    {bits new : Bits} {u s5 : State} (hu : clockAll s0.mmioPoint ((vectorOf n tms tdi).take (p + len)) s0 = .ok (bits ++ new) u)
    (hbits : bits.length = p) (hnew : new.length = len) (hcap : Captured n s.host.tdoBuf bits)
    (hd : ChunkDone (s.nextChunk tms tdi len) new
      (((s.nextChunk tms tdi len).setDraws u.draws).setTarget u.target) s5) :
    Chunking s0 n tms tdi false (p + len) (s5.putWord len) := by
  obtain ⟨hplace, hmod⟩ := h.place hp
  have hhost : s5.host = s.host := hd.host
  have hl : (BitVec.ofNat 32 len).toNat = len := toNat_ofNat_of_le (by omega)
  have halign : ∀ j, (alignCapture s5.mmio.tdo len).getLsbD j = new.getD j false := by
    intro j
    rw [hd.mmio, ← hnew]
    exact pushWords_align_getLsbD _ (by omega) j
  have hcap' := hcap.set_word (a := s.host.byteIdx) (by omega) (by omega) halign
  rw [hnew] at hcap'
  constructor
  case clocked =>
    refine ⟨bits ++ new, u, hu, hd.target, hd.draws, ?_⟩
    show Captured n (setBytes s5.host.tdoBuf s5.host.byteIdx _) _
    rw [hhost]
    exact hcap'
  case p_le => omega
  case left =>
    show s5.host.bitsLeft - len = _
    rw [hhost, h.left]
    omega
  case place =>
    intro hlt
    show 8 * (s5.host.byteIdx + bytesFor len) = _ ∧ _
    rw [hhost, bytesFor]
    omega
  case idle => exact congrArg Mmio.busy hd.mmio
  case clkdiv => exact (congrArg Mmio.clkdiv hd.mmio).trans h.clkdiv
  case delay => exact (congrArg Mmio.delay hd.mmio).trans h.delay
  case synced =>
    intro _
    show s5.shadow = { len := s5.mmio.length, tms := s5.mmio.tms, tdi := s5.mmio.tdi }
    rw [hd.shadow, hd.mmio]
    rfl
  case last =>
    intro _
    refine ⟨(congrArg Mmio.ctrl hd.mmio).trans (congrArg Config.ctrlStart h.cfg), ?_⟩
    refine (congrArg (fun m => m.length.toNat) hd.mmio).trans (hl.trans ?_)
    omega
  case cfg => exact hd.cfg.trans h.cfg
  case handle => exact hd.handle.trans h.handle
  case env =>
    refine hd.env.trans ?_
    show ({ s.env with pace := s5.env.pace } : Env) = _
    rw [h.env]
    rfl
  case pace => exact hd.pace.trans h.pace
  case usb => exact hd.usb.trans h.usb
  case usbHost => exact hd.usbHost.trans h.usbHost

/-- One round of the loop clocks and captures the next chunk (R193). -/
theorem Chunking.round (h : Chunking s0 n tms tdi first p s) (hv : MmioVouched s0 (vectorOf n tms tdi)) (hp : p < n) :
    ∃ t, mmioChunk tms tdi first s = .ok () t ∧ Chunking s0 n tms tdi false (p + min 32 (n - p)) t := by
  obtain ⟨len, hlen⟩ : ∃ len, len = min 32 (n - p) := ⟨_, rfl⟩
  rw [← hlen]
  obtain ⟨bits, new, u, hu, hchunk, hbits, hnew, hcap⟩ := h.next_clocked hv hp hlen
  have hhandle : ∃ i, (s.nextChunk tms tdi len).handle = some (.mmio i) := h.handle ▸ hv.handle
  have hcfg : (s.nextChunk tms tdi len).cfg = s0.cfg := h.cfg
  have henv : (s.nextChunk tms tdi len).env = s.env := rfl
  have hpace := h.pace
  have hlimit := hv.limit
  obtain ⟨s5, epoll, etdo, hd⟩ := chunk_completes hhandle rfl rfl (by rw [hcfg]; exact hv.mask)
    (by rw [henv, h.env]; exact hv.alive) (by rw [hcfg, henv]; omega) hchunk
  refine ⟨s5.putWord len, ?_, h.putWord hp hlen hu hbits hnew hcap hd⟩
  have ewrites := h.writes hv (l := BitVec.ofNat 32 len) (t := chunkWord tms s.host.byteIdx (bytesFor len))
    (d := chunkWord tdi s.host.byteIdx (bytesFor len))
    (by rw [toNat_ofNat_of_le (by omega)]; omega)
  obtain ⟨_, s1, w1, ewrites⟩ := Res.bind_eq_ok.1 ewrites
  obtain ⟨_, s2, w2, ewrites⟩ := Res.bind_eq_ok.1 ewrites
  obtain ⟨_, s3, w3, w4⟩ := Res.bind_eq_ok.1 ewrites
  have hhost : s5.host = s.host := hd.host
  have elen : min chunkBits s.host.bitsLeft = len := by rw [h.left, hlen]; rfl
  unfold mmioChunk
  simp only [elen]
  rw [w1, Res.bind_ok, w2, Res.bind_ok, w3, Res.bind_ok, w4, Res.bind_ok]
  refine (congrArg (Res.bind · _) epoll).trans ?_
  rw [Res.bind_ok, etdo, Res.bind_ok, State.putWord, hhost]

/-- The loop, given a round for each chunk left, clocks and captures the whole vector. -/
theorem Chunking.loop (fuel : Nat) (h : Chunking s0 n tms tdi first p s) (hv : MmioVouched s0 (vectorOf n tms tdi))
    (hfuel : n - p ≤ 32 * fuel) (hfirst : p < n ∨ first = false) :
    ∃ t, mmioLoop tms tdi fuel first s = .ok () t ∧ Chunking s0 n tms tdi false n t := by
  induction fuel generalizing first p s with
  | zero =>
    obtain rfl : p = n := Nat.le_antisymm h.p_le (by omega)
    obtain rfl := hfirst.resolve_left (Nat.lt_irrefl _)
    exact ⟨s, rfl, h⟩
  | succ fuel ih =>
    rw [mmioLoop, h.left]
    split
    case isTrue hdone =>
      obtain rfl : p = n := Nat.le_antisymm h.p_le (by omega)
      obtain rfl := hfirst.resolve_left (Nat.lt_irrefl _)
      exact ⟨s, rfl, h⟩
    case isFalse hmore =>
      obtain ⟨s1, e1, h1⟩ := h.round hv (by omega)
      obtain ⟨t, e, ht⟩ := ih h1 (by omega) (.inr rfl)
      exact ⟨t, by rw [e1, Res.bind_ok, e], ht⟩

/-- `MmioShift` captures what its cycles sample, and ends as the chunk loop does, with the host idle (R193, R203). -/
theorem mmioShift_captures {bits : Bits} {u : State} (hn : 0 < n) (hb : s.mmio.busy = false)
    (hv : MmioVouched s (vectorOf n tms tdi)) (hu : clockAll s.mmioPoint (vectorOf n tms tdi) s = .ok bits u) :
    ∃ t, mmioShift n tms tdi s = .ok (packBits bits) (t.setHost HostSeq.idle) ∧ Chunking s n tms tdi false n t ∧
      t.target = u.target ∧ t.draws = u.draws := by
  have start : Chunking s n tms tdi true 0 ((s.setShadow { len := 0, tms := 0, tdi := 0 }).setHost
      { HostSeq.idle with bitsLeft := n, tdoBuf := List.replicate (bytesFor n) 0 }) :=
    { clocked := ⟨[], s, rfl, rfl, rfl, captured_nil n⟩
      p_le := Nat.zero_le _, left := rfl, place := fun _ => ⟨rfl, rfl⟩, idle := hb, clkdiv := rfl, delay := rfl
      synced := nofun, last := nofun, cfg := rfl, handle := rfl, env := rfl, pace := Nat.le_refl _, usb := rfl
      usbHost := rfl }
  obtain ⟨t, e, ht⟩ := start.loop (chunksFor n) hv (by rw [chunksFor]; omega) (.inl hn)
  obtain ⟨bits', u', hu', htarget, hdraws, hcap⟩ := ht.clocked
  rw [List.take_of_length_le (by rw [vectorOf_length]), hu] at hu'
  cases hu'
  have hlen : bits.length = n := by rw [(clockAll_eq_ok hu).2, vectorOf_length]
  refine ⟨t, ?_, ht, htarget, hdraws⟩
  rw [mmioShift, e, Res.bind_ok, hcap.eq_packBits hlen]

end Sys2Proof.Machine
end

section
/-! ## The shift primitive of a working engine, and invalid operating points

On either backend T.SHIFT captures what its cycles sample (R203, R245); at an invalid point they sample free values and
leave the target unspecified (R48). -/

namespace Sys2Proof.Machine

theorem statusBusy_ne_zero_of_wellFormed {c : Config} (h : c.wellFormed = true) : c.statusBusy ≠ 0 := by
  simp only [Config.wellFormed, Bool.and_eq_true, decide_eq_true_eq] at h
  obtain ⟨⟨⟨⟨-, hmask⟩, -⟩, -⟩, -⟩ := h
  exact hmask

/-- A shift that asks for cycles and comes with a buffer for them passes the checks of R132. -/
theorem shiftRequest_passes {n : Nat} {buf : List Byte} (hn : 0 < n) (hbuf : buf.length = 2 * bytesFor n) :
    ¬((n : Int) < 0 ∨ buf.length ≠ 2 * bytesFor (n : Int).toNat) ∧ (n : Int) ≠ 0 := by
  rw [Int.toNat_natCast]
  omega

theorem shift_of_mmio {s : State} {i n : Nat} {buf : List Byte} (hh : s.handle = some (.mmio i)) (hn : 0 < n)
    (hbuf : buf.length = 2 * bytesFor n) :
    shift n buf s = mmioShift n (buf.take (bytesFor n)) (buf.drop (bytesFor n)) s := by
  obtain ⟨hok, hne⟩ := shiftRequest_passes hn hbuf
  rw [shift, needHandle_eq_ok.2 ⟨hh, rfl⟩, Res.bind_ok, if_neg hok, if_neg hne]
  rfl

theorem shift_of_usb {s : State} {a : UsbAddress} {n : Nat} {buf : List Byte} (hh : s.handle = some (.usb a)) (hn : 0 < n)
    (hbuf : buf.length = 2 * bytesFor n) :
    shift n buf s = usbShift n (buf.take (bytesFor n)) (buf.drop (bytesFor n)) s := by
  obtain ⟨hok, hne⟩ := shiftRequest_passes hn hbuf
  rw [shift, needHandle_eq_ok.2 ⟨hh, rfl⟩, Res.bind_ok, if_neg hok, if_neg hne]
  rfl

section
variable {s u : State} {n : Nat} {tms tdi buf : List Byte} {bits : Bits}

/-- `UsbShift` of a working adapter captures what its cycles sample (R245). -/
theorem usbShift_captures (hw : s.cfg.wellFormed = true) (hr : s.usbReady)
    (hu : clockAll (s.usbPoint s.usbHost.edge) (vectorOf n tms tdi) s = .ok bits u) :
    ∃ t, usbShift n tms tdi s = .ok (packBits bits) t ∧ t.target = u.target ∧ t.draws = u.draws := by
  obtain ⟨-, hq, hrsp, hl, halive, htransfers⟩ := hr
  have h := usbShift_leaves (T := True) (n := n) (tms := tms) (tdi := tdi) hw hq (levelsAgree_iff.1 hl)
    (fun _ => ⟨halive, bits, u, hu⟩) fun _ => ⟨hrsp, htransfers⟩
  cases e : usbShift n tms tdi s with
  | ok cap t =>
    rw [e] at h
    obtain ⟨-, -, h⟩ := h
    obtain ⟨bits', u', hu', rfl, htarget, hdraws, -⟩ := h trivial
    cases hu.symm.trans hu'
    exact ⟨t, rfl, htarget, hdraws⟩
  | stuck t => rw [e] at h; exact absurd trivial h.1
  | fault f => rw [e] at h; exact absurd trivial h
  | refused r => rw [e] at h; exact absurd trivial h

/-- T.SHIFT with a working engine of either backend answers the capture of its cycles and leaves the target as they do;
the rest of the state stays (R132). -/
theorem shift_captures (hs : s.shiftReady) (hn : 0 < n) (hbuf : buf.length = 2 * bytesFor n)
    (hu : clockAll s.shiftPoint (vectorOf n (buf.take (bytesFor n)) (buf.drop (bytesFor n))) s = .ok bits u) :
    ∃ t, shift n buf s = .ok (packBits bits) t ∧ t.target = u.target ∧ t.draws = u.draws ∧ Kept s t := by
  have captures : ∃ t, shift n buf s = .ok (packBits bits) t ∧ t.target = u.target ∧ t.draws = u.draws := by
    obtain ⟨hw, ⟨⟨i, hh⟩, hb, halive, hlimit⟩ | hr⟩ := hs
    · rw [State.shiftPoint, hh] at hu
      rw [shift_of_mmio hh hn hbuf]
      obtain ⟨t, e, -, htarget, hdraws⟩ := mmioShift_captures hn hb
        ⟨⟨i, hh⟩, statusBusy_ne_zero_of_wellFormed hw, halive, hlimit, bits, u, hu⟩ hu
      exact ⟨_, e, htarget, hdraws⟩
    · obtain ⟨a, hh⟩ := hr.1
      rw [State.shiftPoint, hh] at hu
      rw [shift_of_usb hh hn hbuf]
      exact usbShift_captures hw hr hu
  obtain ⟨t, e, htarget, hdraws⟩ := captures
  have hk := shift_keeps n buf s
  rw [e] at hk
  exact ⟨t, e, htarget, hdraws, hk⟩

end

/-! ### Invalid operating points -/

/-- At an invalid point every cycle samples the free bit of its draw, and the last one decides what the target is left
with (R48). -/
theorem clockAll_of_invalid {pt : Nat × Nat} {s : State} (h : s.env.isValid pt = false) (c : Bool × Bool)
    (v : List (Bool × Bool)) : clockAll pt (c :: v) s =
      .ok ((List.range (v.length + 1)).map fun i => Config.freeBit (s.draws + i) 0)
        ((s.setDraws (s.draws + (v.length + 1))).setTarget (s.target.lose (s.draws + v.length))) := by
  induction v generalizing c s with
  | nil =>
    rw [clockAll_singleton, clock_of_invalid _ _ h]
    rfl
  | cons c' v ih =>
    have later := ih (s := (s.setDraws (s.draws + 1)).setTarget (s.target.lose s.draws)) h c'
    have hbits : (List.range (v.length + 1)).map (fun i => Config.freeBit (s.draws + 1 + i) 0) =
        (List.range (v.length + 1)).map fun i => Config.freeBit (s.draws + (i + 1)) 0 :=
      List.map_congr_left fun i _ => by rw [Nat.add_assoc, Nat.add_comm 1]
    have hd : s.draws + 1 + v.length = s.draws + (v.length + 1) := by omega
    have hd' : s.draws + 1 + (v.length + 1) = s.draws + (v.length + 1 + 1) := by omega
    simp only [State.setTarget_draws, State.setDraws_draws, State.setTarget_target, Target.lose_lose, hbits, hd, hd']
      at later
    rw [clockAll, clock_of_invalid _ _ h, Res.bind_ok, later, Res.bind_ok, List.length_cons,
      List.range_succ_eq_map (n := v.length + 1), List.map_cons, List.map_map]
    rfl

theorem loseChain_unknown {draw j : Nat} {ts : List Tap} {t : Tap} (h : t ∈ loseChain draw j ts) : t.known = false := by
  induction ts generalizing j with
  | nil => exact absurd h List.not_mem_nil
  | cons x ts ih =>
    obtain rfl | h := List.mem_cons.1 h
    · rfl
    · exact ih h

/-- No TAP of a target that was lost is known (R48). -/
theorem Target.lose_unknown {draw : Nat} {x : Target} {ts : List Tap} (e : x.lose draw = .chain ts) :
    ∀ t ∈ ts, t.known = false := by
  cases x with
  | chain xs =>
    cases e
    exact fun t => loseChain_unknown
  | loopback f => cases e

/-- Settles O31: the cycles of either backend's shift are those of its vector, and each of them samples a free bit and
loses the target. -/
theorem invalidPointLosesCaptureAndTarget : Obligations.InvalidPointLosesCaptureAndTarget := by
  intro s n buf hs hinvalid hn hbuf
  have hlen := vectorOf_length n (buf.take (bytesFor n)) (buf.drop (bytesFor n))
  obtain ⟨c, v, ev⟩ := List.exists_cons_of_length_pos (hlen.symm ▸ hn)
  rw [ev, List.length_cons] at hlen
  have hu := clockAll_of_invalid hinvalid c v
  rw [← ev, hlen, show v.length = n - 1 by omega] at hu
  obtain ⟨t, e, htarget, hdraws, hcfg, hhandle, hidentity, htable, -, hdiags, hcalls⟩ := shift_captures hs hn hbuf hu
  have htarget : t.target = s.target.lose (s.draws + (n - 1)) := htarget
  have hdraws : t.draws = s.draws + n := hdraws
  obtain ⟨bits, hbits⟩ : ∃ bits, bits = (List.range n).map fun i => Config.freeBit (s.draws + i) 0 := ⟨_, rfl⟩
  have hbn : bits.length = n := by rw [hbits, List.length_map, List.length_range]
  rw [← hbits] at e
  obtain ⟨hcap, hat⟩ := captured_packBits bits
  refine ⟨giveCapture (packBits bits) t, packBits bits, ?_, rfl, hbn ▸ hcap, fun i hi => ?_, htarget, hdraws,
    fun ts hts => Target.lose_unknown (htarget.symm.trans hts), ?_, hidentity, hdiags, ?_⟩
  · show (shift n buf s).out giveCapture = _
    rw [e]
    rfl
  · rw [hat, hbits, List.getD_eq_getElem?_getD]
    simp [hi]
  · exact (congrArg Target.constants htarget).trans (Target.lose_constants _ _)
  · show (t.cfg, t.handle, t.table, t.calls) = _
    rw [hcfg, hhandle, htable, hcalls]
    rfl

end Sys2Proof.Machine
end

section
/-! ## The register window, idle and busy

What a write answers on an idle sequencer (R69, R198 to R202), and what a busy one refuses (R68, R75, R191, R353). -/

namespace Sys2Proof.Machine

/-! ### An idle sequencer -/

section
variable {s : State} {u : Nat} (hh : s.handle = some (.mmio u)) (hb : s.mmio.busy = false)
include hh hb

/-- An idle window stores what is written and nothing else (R69). -/
theorem mmioWrite_of_idle (f : Mmio → Mmio) : mmioWrite f s = .ok () (s.setMmio (f s.mmio)) :=
  mmioWrite_eq_ok.2 ⟨⟨u, hh⟩, hb, rfl⟩

/-- An idle window stores a legal value and reports any other (R26, R27, R315). -/
theorem mmioWriteIn_of_idle (max : Nat) (v : Word) (f : Mmio → Mmio) :
    mmioWriteIn max v f s =
      .ok () (if v.toNat ≤ max then s.setMmio (f s.mmio) else s.setDiags (s.diags ++ [.outOfRangeParameter])) := by
  refine mmioWriteIn_eq_ok.2 ⟨⟨u, hh⟩, hb, ?_⟩
  split
  case isTrue hv => exact .inl ⟨hv, rfl⟩
  case isFalse hv => exact .inr ⟨Nat.lt_of_not_le hv, rfl⟩

end

/-- Settles O18. -/
theorem registerWritesStoreOnly : Obligations.RegisterWritesStoreOnly := by
  intro s u v hh hb
  refine ⟨?length, ?tms, ?tdi, ?clkdiv, ?delay⟩
  case length => exact congrArg (Res.out · giveWritten) (mmioWrite_of_idle hh hb _)
  case tms => exact congrArg (Res.out · giveWritten) (mmioWrite_of_idle hh hb _)
  case tdi => exact congrArg (Res.out · giveWritten) (mmioWrite_of_idle hh hb _)
  case clkdiv => exact congrArg (Res.out · giveWritten) (mmioWriteIn_of_idle hh hb _ v _)
  case delay => exact congrArg (Res.out · giveWritten) (mmioWriteIn_of_idle hh hb _ v _)

/-! ### A busy sequencer -/

/-- J.TCK is one cycle of the target in the state it names (R94, R151). -/
theorem exec_of_tck {i : Instr} {x : TapState} {tms tdi : Bool} (h : i.tck? = some (x, tms, tdi)) (s : State) :
    exec i s = (tckIn x tms tdi s).out giveTdo := by
  cases i <;> cases h
  all_goals rfl

section
variable {s : State} {u : Nat} (hh : s.handle = some (.mmio u)) (hb : s.mmio.busy = true)
include hh hb

theorem mmioWrite_of_busy (f : Mmio → Mmio) : mmioWrite f s = .refused .accessWhileBusy := by
  rw [mmioWrite, needMmio_eq_ok.2 ⟨⟨u, hh⟩, rfl⟩, Res.bind_ok, if_pos hb]

theorem mmioWriteIn_of_busy (max : Nat) (v : Word) (f : Mmio → Mmio) :
    mmioWriteIn max v f s = .refused .accessWhileBusy := by
  rw [mmioWriteIn, needMmio_eq_ok.2 ⟨⟨u, hh⟩, rfl⟩, Res.bind_ok, if_pos hb]

theorem mmioStart_of_busy : mmioStart s = .refused .accessWhileBusy := by
  rw [mmioStart, needMmio_eq_ok.2 ⟨⟨u, hh⟩, rfl⟩, Res.bind_ok, if_pos hb]

theorem mmioTdo_of_busy : mmioTdo s = .refused .tdoReadWhileBusy := by
  rw [mmioTdo, needMmio_eq_ok.2 ⟨⟨u, hh⟩, rfl⟩, Res.bind_ok, if_pos hb]

/-- The target is in the sequencer's hands until the chunk ends (R68, R191). -/
theorem needTarget_of_busy : needTarget s = .refused .targetInUse := by
  rw [needTarget, needHandle_eq_ok.2 ⟨hh, rfl⟩, Res.bind_ok, if_pos hb]

theorem tckIn_of_busy (x : TapState) (tms tdi : Bool) : tckIn x tms tdi s = .refused .targetInUse := by
  rw [tckIn, needTarget_of_busy hh hb, Res.bind_refused]

theorem latchCode_of_busy (f : TapParams → Bits) : latchCode f s = .refused .targetInUse := by
  rw [latchCode, needTarget_of_busy hh hb, Res.bind_refused]

end

/-- Settles O19: each of these operations asks first for an idle sequencer. -/
theorem writesStrobeTdoReadAndTapRefusedWhileBusy : Obligations.WritesStrobeTdoReadAndTapRefusedWhileBusy := by
  intro s u v hh hb
  refine ⟨?accesses, congrArg (Res.out · giveWord) (mmioTdo_of_busy hh hb), ?target⟩
  case accesses =>
    have stored (f : Mmio → Mmio) : (mmioWrite f s).out giveWritten = .refused .accessWhileBusy :=
      congrArg (Res.out · giveWritten) (mmioWrite_of_busy hh hb f)
    have bounded (max : Nat) (f : Mmio → Mmio) : (mmioWriteIn max v f s).out giveWritten = .refused .accessWhileBusy :=
      congrArg (Res.out · giveWritten) (mmioWriteIn_of_busy hh hb max v f)
    have strobe : (mmioStart s).out giveWritten = .refused .accessWhileBusy :=
      congrArg (Res.out · giveWritten) (mmioStart_of_busy hh hb)
    simp only [List.forall_mem_cons]
    exact ⟨stored _, stored _, stored _, bounded _ _, bounded _ _, strobe, fun _ h => absurd h List.not_mem_nil⟩
  case target =>
    rintro i (htck | rfl | rfl)
    · obtain ⟨⟨x, tms, tdi⟩, hx⟩ := Option.isSome_iff_exists.1 htck
      rw [exec_of_tck hx, tckIn_of_busy hh hb, Res.out_refused]
    · exact congrArg (Res.out · giveNothing) (latchCode_of_busy hh hb _)
    · exact congrArg (Res.out · giveNothing) (latchCode_of_busy hh hb _)

end Sys2Proof.Machine
end

section
/-! ## The bytes of a call

The caller's operations read back from their bytes (log entry 1): first each format, then the call around it
(`decode_encode`). -/

namespace Sys2Proof

/-! ### Numbers in little-endian bytes -/

/-- A number that fits its bytes is the one they hold. -/
theorem natOfBytes_leBytes_of_lt {k x : Nat} (h : x < 256 ^ k) : natOfBytes (leBytes k x) = x := by
  rw [natOfBytes_leBytes, Nat.mod_eq_of_lt h]

/-- A word of at most `8 * k` bits is the one its `k` bytes hold. -/
theorem ofNat_natOfBytes_leBytes {w k : Nat} (h : w ≤ 8 * k) (v : BitVec w) :
    BitVec.ofNat w (natOfBytes (leBytes k v.toNat)) = v := by
  have hk : v.toNat < 256 ^ k := by
    calc v.toNat < 2 ^ w := v.isLt
      _ ≤ 2 ^ (8 * k) := Nat.pow_le_pow_right (by decide) h
      _ = 256 ^ k := Nat.pow_mul 2 8 k
  rw [natOfBytes_leBytes_of_lt hk, BitVec.ofNat_toNat, BitVec.setWidth_eq]

/-- A signed operand is the one its bytes hold (log entry 28). -/
theorem intOfBytes_intBytes {v : Int} (h : intFits v = true) : intOfBytes (intBytes v) = v := by
  have hv : -(2 ^ 63) ≤ v ∧ v < 2 ^ 63 := of_decide_eq_true h
  rw [intOfBytes, intBytes, ofNat_natOfBytes_leBytes (by decide), BitVec.toInt_ofInt]
  exact Int.bmod_eq_of_le (by omega) (by omega)

/-- The bytes of a number stand at the front and are taken off. -/
@[simp] theorem takeBytes_leBytes (k x : Nat) (rest : List Byte) :
    takeBytes k (leBytes k x ++ rest) = some (leBytes k x, rest) :=
  takeBytes_append_of_length rest (leBytes_length k x)

/-! ### The operands of each format -/

/-- Construction operands read back (R91). -/
theorem decodeOpen_openBytes {p : OpenParams} (h : p.wellFormed = true) (tail : List Byte) :
    decodeOpen (openBytes p ++ tail) = .ok (.tOpen p) tail := by
  cases p with
  | mmio i =>
    have hi : natOfBytes (leBytes 4 i) = i := natOfBytes_leBytes_of_lt (of_decide_eq_true h)
    simp [decodeOpen, openBytes, hi]
  | usb a =>
    simp only [OpenParams.wellFormed, Bool.and_eq_true, decide_eq_true_eq] at h
    obtain ⟨hinterface, hserial⟩ := h
    have header : takeBytes 12 (leBytes 2 a.vid.toNat ++ leBytes 2 a.pid.toNat ++ leBytes 4 a.interface
        ++ leBytes 4 a.serial.length ++ (a.serial ++ tail)) = some (_, a.serial ++ tail) :=
      takeBytes_append_of_length _ (by simp)
    have interface : natOfBytes (leBytes 4 a.interface) = a.interface := natOfBytes_leBytes_of_lt hinterface
    have count : natOfBytes (leBytes 4 a.serial.length) = a.serial.length := natOfBytes_leBytes_of_lt hserial
    simp only [List.append_assoc] at header
    simp [decodeOpen, openBytes, header, List.drop_append, List.drop_of_length_le, ofNat_natOfBytes_leBytes,
      interface, count]

/-- A shift request reads back (R92). -/
theorem decodeShift_intBytes {n : Int} {buf : List Byte} (h : (Instr.tShift n buf).wellFormed = true)
    (tail : List Byte) : decodeShift (intBytes n ++ buf ++ tail) = .ok (.tShift n buf) tail := by
  simp only [Instr.wellFormed, Bool.and_eq_true, decide_eq_true_eq] at h
  obtain ⟨⟨hn, hn'⟩, hbuf⟩ := h
  have hint : intOfBytes (intBytes n) = n := intOfBytes_intBytes (decide_eq_true ⟨by omega, hn'⟩)
  have hlen : takeBytes 8 (intBytes n ++ (buf ++ tail)) = some (intBytes n, buf ++ tail) := takeBytes_leBytes 8 _ _
  simp [decodeShift, hlen, hint, takeBytes_append_of_length tail hbuf]

/-- A signed operand reads back (R93). -/
theorem decodeInt_intBytes (f : Int → Instr) {v : Int} (h : intFits v = true) (tail : List Byte) :
    decodeInt f (intBytes v ++ tail) = .ok (f v) tail := by
  have hlen : takeBytes 8 (intBytes v ++ tail) = some (intBytes v, tail) := takeBytes_leBytes 8 _ _
  simp [decodeInt, hlen, intOfBytes_intBytes h]

/-- A payload word reads back (R267). -/
theorem decodeBypass_leBytes (v : Word) (tail : List Byte) :
    decodeBypass (leBytes 4 v.toNat ++ tail) = .ok (.pProbeBypass v) tail := by
  simp [decodeBypass, ofNat_natOfBytes_leBytes]

/-- A counted list of payload words reads back (R268). -/
theorem decodeBypassVec_wordBytes {vs : List Word} (h : vs.length < 2 ^ 32) (tail : List Byte) :
    decodeBypassVec (leBytes 4 vs.length ++ wordBytes vs ++ tail) = .ok (.pProbeBypassVec vs) tail := by
  simp [decodeBypassVec, natOfBytes_leBytes_of_lt (k := 4) h, takeWords_append]

/-! ### TCK cycles (J1) -/

/-- The state code and the two bits do not overlap in a J1 word. -/
theorem tckWord_toNat (x : TapState) (tms tdi : Bool) :
    (tckWord x tms tdi).toNat % 64 = 4 * x.code + 2 * tms.toNat + tdi.toNat := by
  have hcode : x.code < 16 := by cases x <;> decide
  have hm := tms.toNat_le
  have hd := tdi.toNat_le
  rw [tckWord, BitVec.toNat_ofNat]
  omega

/-- A J1 word selects the operation of its state, with its TMS and TDI (R94, R175). -/
theorem decodeTck_tckWord {i : Instr} {x : TapState} {tms tdi : Bool} (h : i.tck? = some (x, tms, tdi)) :
    decodeTck ((tckWord x tms tdi).toNat % 64) = some i := by
  have hm := tms.toNat_le
  have hd := tdi.toNat_le
  have state : (4 * x.code + 2 * tms.toNat + tdi.toNat) / 4 = x.code := by omega
  have level : (4 * x.code + 2 * tms.toNat + tdi.toNat).testBit 1 = tms := by
    rw [Nat.testBit_eq_decide_div_mod_eq]
    cases tms <;> simp <;> omega
  have data : (4 * x.code + 2 * tms.toNat + tdi.toNat).testBit 0 = tdi := by
    rw [Nat.testBit_eq_decide_div_mod_eq]
    cases tdi <;> simp <;> omega
  rw [tckWord_toNat, decodeTck, state, level, data]
  cases i <;> cases h
  all_goals rfl

/-- The call of a J.TCK operation is its J1 word (log entry 1). -/
theorem encode_of_tck {i : Instr} {x : TapState} {tms tdi : Bool} (h : i.tck? = some (x, tms, tdi)) (c : Config) :
    encode c i = [tagTck, tckWord x tms tdi] := by
  cases i <;> cases h
  all_goals rfl

theorem wellFormed_of_tck {i : Instr} {w : TapState × Bool × Bool} (h : i.tck? = some w) : i.wellFormed = true := by
  cases i <;> cases h
  all_goals rfl

/-! ### MMIO accesses (M1) -/

/-- A register lies aligned in the window, and the window within four bytes of offset (R66, log entry 40). -/
theorem Config.offset_inWindow {c : Config} (h : c.wellFormed = true) {off : Nat} (ho : off ∈ c.offsets) :
    off % 4 = 0 ∧ off + 4 ≤ c.regionBytes ∧ off < 256 ^ 4 := by
  simp only [Config.wellFormed, Bool.and_eq_true, decide_eq_true_eq] at h
  have htable : c.tableOk = true := by tauto
  have hwindow : c.regionBytes ≤ 2 ^ 32 := by tauto
  have hoff := List.all_eq_true.1 htable off ho
  simp only [Config.offsetOk, Bool.and_eq_true, decide_eq_true_eq] at hoff
  omega

/-- No two registers that are written share an offset (R25, R77). -/
theorem Config.writeOffsets_pairwise {c : Config} (h : c.wellFormed = true) :
    [c.regLength, c.regTms, c.regTdi, c.regTdo, c.regCtrl, c.regClkdiv, c.regDelay].Pairwise
      fun a b => a ≠ b ∧ b ≠ a := by
  simp only [Config.wellFormed, Bool.and_eq_true, decide_eq_true_eq] at h
  have hn : [c.regLength, c.regTms, c.regTdi, c.regTdo, c.regCtrl, c.regClkdiv, c.regDelay].Nodup := by tauto
  exact hn.imp fun h => ⟨h, h.symm⟩

/-- TDO and STATUS, the two registers that are read, are at different offsets (R25, R77). -/
theorem Config.regTdo_ne_regStatus {c : Config} (h : c.wellFormed = true) : c.regTdo ≠ c.regStatus := by
  simp only [Config.wellFormed, Bool.and_eq_true, decide_eq_true_eq] at h
  have hn : [c.regLength, c.regTms, c.regTdi, c.regTdo, c.regStatus, c.regClkdiv, c.regDelay].Nodup := by tauto
  simp only [List.nodup_cons, List.mem_cons, not_or] at hn
  tauto

/-- An access at a register's offset reaches the register (R66, R77). -/
theorem decodeAccessCall_accessBytes {c : Config} (h : c.wellFormed = true) {off : Nat} (ho : off ∈ c.offsets)
    (dir : Byte) (value tail : List Byte) :
    decodeAccessCall c (accessBytes off dir value ++ tail) = decodeAccess c off dir (value ++ tail) := by
  obtain ⟨-, -, hfits⟩ := Config.offset_inWindow h ho
  have hoff : natOfBytes (leBytes 4 off) = off := natOfBytes_leBytes_of_lt hfits
  have header : takeBytes 5 (leBytes 4 off ++ dir :: (value ++ tail)) =
      some (leBytes 4 off ++ [dir], value ++ tail) := by
    simpa using takeBytes_append_of_length (xs := leBytes 4 off ++ [dir]) (value ++ tail) (by simp)
  rw [accessBytes, List.append_assoc, List.cons_append, decodeAccessCall, header]
  exact congrArg (decodeAccess c · dir (value ++ tail)) hoff

/-- The writes of a value: the register's offset, and the operation (R96). -/
def Config.writes (c : Config) (v : Word) : List (Nat × Instr) :=
  [(c.regLength, .mWrLength v), (c.regTms, .mWrTms v), (c.regTdi, .mWrTdi v), (c.regClkdiv, .mWrClkdiv v),
    (c.regDelay, .mWrDelay v)]

/-- A write of a value reads back (R96). -/
theorem decodeAccess_write {c : Config} (h : c.wellFormed = true) (v : Word) (tail : List Byte) :
    ∀ r ∈ c.writes v, decodeAccess c r.1 0 (leBytes 4 v.toNat ++ tail) = .ok r.2 tail := by
  have hn := Config.writeOffsets_pairwise h
  simp only [List.pairwise_cons, List.forall_mem_cons] at hn
  have hin {off : Nat} (ho : off ∈ c.offsets) := Config.offset_inWindow h ho
  simp only [Config.offsets, List.mem_cons, forall_eq_or_imp] at hin
  simp [Config.writes, decodeAccess, hn, hin, ofNat_natOfBytes_leBytes]

/-- The start strobe reads back (R96, R195). -/
theorem decodeAccess_start {c : Config} (h : c.wellFormed = true) (tail : List Byte) :
    decodeAccess c c.regCtrl 0 (leBytes 4 c.ctrlStart.toNat ++ tail) = .ok .mWrStart tail := by
  have hn := Config.writeOffsets_pairwise h
  simp only [List.pairwise_cons, List.forall_mem_cons] at hn
  obtain ⟨haligned, hin, -⟩ := Config.offset_inWindow h (off := c.regCtrl) (by simp [Config.offsets])
  simp [decodeAccess, hn, haligned, Nat.not_lt.2 hin, ofNat_natOfBytes_leBytes]

/-- A read of STATUS reads back (R96, R25). -/
theorem decodeAccess_status {c : Config} (h : c.wellFormed = true) (bs : List Byte) :
    decodeAccess c c.regStatus 1 bs = .ok .mRdStatus bs := by
  obtain ⟨haligned, hin, -⟩ := Config.offset_inWindow h (off := c.regStatus) (by simp [Config.offsets])
  simp [decodeAccess, haligned, Nat.not_lt.2 hin]

/-- A read of TDO reads back (R96, R197). -/
theorem decodeAccess_tdo {c : Config} (h : c.wellFormed = true) (bs : List Byte) :
    decodeAccess c c.regTdo 1 bs = .ok .mRdTdo bs := by
  obtain ⟨haligned, hin, -⟩ := Config.offset_inWindow h (off := c.regTdo) (by simp [Config.offsets])
  simp [decodeAccess, haligned, Nat.not_lt.2 hin, Config.regTdo_ne_regStatus h]

/-! ### The call -/

/-- Only a well-formed operation passes the check. -/
theorem Decoded.checked_eq_ok {d : Decoded} {i : Instr} {rest : List Byte} :
    d.checked = .ok i rest ↔ d = .ok i rest ∧ i.wellFormed = true := by
  cases d with
  | ok j bs =>
    simp only [Decoded.checked, Decoded.ok.injEq]
    split <;> grind
  | incomplete => simp [Decoded.checked]
  | bad why => simp [Decoded.checked]

/-- What a decoder answers on a call: what its tag's format reads, if that is well formed. -/
theorem decode_cons_eq_ok {c : Config} {t : Byte} {bs tail : List Byte} {i : Instr} :
    decode c (t :: bs) = .ok i tail ↔ decodeTagged c t bs = .ok i tail ∧ i.wellFormed = true :=
  Decoded.checked_eq_ok

/-- A command of the adapter reads back from the head of its stream (R97 to R102). -/
theorem decodeCommand_encodeCommand {c : Config} {i : Instr} (h : c.wellFormed = true) (hi : i.wellFormed = true)
    (he : encodeCommand c i ≠ []) (tail : List Byte) : decodeCommand c (encodeCommand c i ++ tail) = .ok i tail := by
  cases i with
  | uByteShift e d =>
    obtain ⟨h1, h2⟩ := of_decide_eq_true hi
    exact decodeCommand_byteShift h e h1 h2 tail
  | uBitShift e r d =>
    obtain ⟨h1, h2⟩ := of_decide_eq_true hi
    exact decodeCommand_bitShift h e h1 h2 d tail
  | uTmsShift e r b =>
    obtain ⟨h1, h2⟩ := of_decide_eq_true hi
    exact decodeCommand_tmsShift h e h1 h2 b tail
  | uSetDivisor div => exact decodeCommand_setDivisor h div tail
  | _ => exact absurd rfl he

/-- Settles O45. -/
theorem commandStreamDecodesToItsCommand : Obligations.CommandStreamDecodesToItsCommand :=
  fun _ _ tail hc hi he => decodeCommand_encodeCommand hc hi he tail

/-- A call reads back if its operands do, by the format of its tag. -/
theorem decode_of_tagged {c : Config} {t : Byte} {bs tail : List Byte} {i : Instr} (hi : i.wellFormed = true)
    (h : decodeTagged c t bs = .ok i tail) : decode c (t :: bs) = .ok i tail :=
  decode_cons_eq_ok.2 ⟨h, hi⟩

/-- The call of a J.TCK operation reads back. -/
theorem decode_encode_tck {i : Instr} {w : TapState × Bool × Bool} (h : i.tck? = some w) (c : Config)
    (tail : List Byte) : decode c (encode c i ++ tail) = .ok i tail := by
  obtain ⟨x, tms, tdi⟩ := w
  have word : decodeTckCall (tckWord x tms tdi :: tail) = .ok i tail := by
    simp only [decodeTckCall, decodeTck_tckWord h]
  rw [encode_of_tck h]
  exact decode_of_tagged (wellFormed_of_tck h) word

section
variable {c : Config} (hc : c.wellFormed = true)
include hc

/-- The call of an access reads back as the operation at its register. -/
theorem decode_access {off : Nat} {dir : Byte} {value tail : List Byte} {i : Instr} (ho : off ∈ c.offsets)
    (hi : i.wellFormed = true) (h : decodeAccess c off dir (value ++ tail) = .ok i tail) :
    decode c (tagMmio :: (accessBytes off dir value ++ tail)) = .ok i tail :=
  decode_of_tagged hi ((decodeAccessCall_accessBytes hc ho dir value tail).trans h)

/-- The call of a write reads back. -/
theorem decode_write {off : Nat} {v : Word} {i : Instr} (h : (off, i) ∈ c.writes v) (hi : i.wellFormed = true)
    (tail : List Byte) : decode c (tagMmio :: (accessBytes off 0 (leBytes 4 v.toNat) ++ tail)) = .ok i tail := by
  have ho : off ∈ c.offsets := by
    simp only [Config.writes, List.mem_cons, Prod.mk.injEq] at h
    simp only [Config.offsets, List.mem_cons]
    tauto
  exact decode_access hc ho hi (decodeAccess_write hc v tail _ h)

/-- The call of an MPSSE command reads back. -/
theorem decode_command {i : Instr} (hi : i.wellFormed = true) (he : encodeCommand c i ≠ []) (tail : List Byte) :
    decode c (tagCommand :: (encodeCommand c i ++ tail)) = .ok i tail :=
  decode_of_tagged hi (decodeCommand_encodeCommand hc hi he tail)

/-- The call of a well-formed operation reads back, whatever follows it. -/
theorem decode_encode {i : Instr} (hi : i.wellFormed = true) (tail : List Byte) :
    decode c (encode c i ++ tail) = .ok i tail := by
  cases i with
  | tOpen p => exact decode_of_tagged hi (decodeOpen_openBytes hi tail)
  | tShift n buf => exact decode_of_tagged hi (decodeShift_intBytes hi tail)
  | tSetClockDivisor v => exact decode_of_tagged hi (decodeInt_intBytes _ hi tail)
  | tSetTimingParam v => exact decode_of_tagged hi (decodeInt_intBytes _ hi tail)
  | jTckTestLogicReset | jTckRunTestIdle | jTckSelectDrScan | jTckCaptureDr | jTckShiftDr | jTckExit1Dr | jTckPauseDr
  | jTckExit2Dr | jTckUpdateDr | jTckSelectIrScan | jTckCaptureIr | jTckShiftIr | jTckExit1Ir | jTckPauseIr
  | jTckExit2Ir | jTckUpdateIr => exact decode_encode_tck rfl c tail
  | mWrLength v | mWrTms v | mWrTdi v | mWrClkdiv v | mWrDelay v =>
    exact decode_write hc (by simp [Config.writes]) hi tail
  | mWrStart => exact decode_access hc (by simp [Config.offsets]) hi (decodeAccess_start hc tail)
  | mRdStatus => exact decode_access hc (by simp [Config.offsets]) hi (decodeAccess_status hc tail)
  | mRdTdo => exact decode_access hc (by simp [Config.offsets]) hi (decodeAccess_tdo hc tail)
  | uByteShift | uBitShift | uTmsShift | uSetDivisor => exact decode_command hc hi (List.cons_ne_nil _ _) tail
  | pProbeBypass v => exact decode_of_tagged hi (decodeBypass_leBytes v tail)
  | pProbeBypassVec vs => exact decode_of_tagged hi (decodeBypassVec_wordBytes (of_decide_eq_true hi).2 tail)
  | jIdcode | jBypass | uFlush | pProbeIdcode | pScanChain | pDetect => exact decode_of_tagged hi rfl

end

/-- Settles O44. -/
theorem callDecodesToItsOperation : Obligations.CallDecodesToItsOperation :=
  fun _ _ tail hc hi => decode_encode hc hi tail

/-- Settles O49: each word decodes by evaluation. -/
theorem sampleWordsDecode : Obligations.SampleWordsDecode := by
  refine ⟨?byteShift, ?bitShift, ?tmsShift, ?setDivisor, ?write, ?cycle⟩
  all_goals decide

end Sys2Proof
end

section
/-! ## What a decoder leaves

Every decoder takes its bytes from the front of the stream (R97, log entry 1), so a call takes at least its tag. -/

namespace Sys2Proof

/-- If the answer is an operation, the bytes left are the end of `bs`. -/
def Decoded.Leaves (bs : List Byte) : Decoded → Prop
  | .ok _ rest => rest <:+ bs
  | .incomplete => True
  | .bad _ => True

theorem Decoded.leaves_ok (i : Instr) (bs : List Byte) : (Decoded.ok i bs).Leaves bs := List.suffix_rfl

theorem Decoded.Leaves.trans {d : Decoded} {bs bs' : List Byte} (h : d.Leaves bs) (hs : bs <:+ bs') : d.Leaves bs' := by
  cases d with
  | ok i rest => exact List.IsSuffix.trans h hs
  | incomplete => trivial
  | bad why => trivial

theorem Decoded.leaves_ite {p : Prop} [Decidable p] {bs : List Byte} {d e : Decoded} (hd : d.Leaves bs)
    (he : e.Leaves bs) : (if p then d else e).Leaves bs := by
  split
  · exact hd
  · exact he

/-- Waiting for bytes and then reading on leaves the end of the stream, if the reading on does. -/
theorem Decoded.leaves_takeBytes {k : Nat} {bs : List Byte} {f : List Byte → List Byte → Decoded}
    (h : ∀ xs rest, (f xs rest).Leaves rest) :
    Decoded.Leaves bs (match takeBytes k bs with
      | none => .incomplete
      | some (xs, rest) => f xs rest) := by
  split
  · trivial
  · rename_i xs rest htake
    exact (h xs rest).trans ⟨xs, (takeBytes_eq_some htake).1.symm⟩

/-- Words taken off a stream stood at its front. -/
theorem takeWords_suffix {n : Nat} {bs rest : List Byte} {ws : List Word} (h : takeWords n bs = some (ws, rest)) :
    rest <:+ bs := by
  induction n generalizing bs ws with
  | zero =>
    simp only [takeWords, Option.some.injEq, Prod.mk.injEq] at h
    exact h.2 ▸ List.suffix_rfl
  | succ n ih =>
    simp only [takeWords] at h
    split at h
    · cases h
    · rename_i w rest' hw
      split at h
      · cases h
      · rename_i hws
        cases h
        exact (ih hws).trans ⟨w, (takeBytes_eq_some hw).1.symm⟩

/-! ### The formats -/

section
open Decoded (leaves_ok leaves_ite leaves_takeBytes)

theorem decodeOpen_leaves (bs : List Byte) : (decodeOpen bs).Leaves bs := by
  cases bs with
  | nil => trivial
  | cons kind bs =>
    refine Decoded.Leaves.trans (bs := bs) (leaves_ite ?mmio ?usb) (List.suffix_cons kind bs)
    case mmio => exact leaves_takeBytes fun _ _ => leaves_ok _ _
    case usb => exact leaves_takeBytes fun _ _ => leaves_takeBytes fun _ _ => leaves_ok _ _

theorem decodeShift_leaves (bs : List Byte) : (decodeShift bs).Leaves bs :=
  leaves_takeBytes fun _ _ => leaves_takeBytes fun _ _ => leaves_ok _ _

theorem decodeInt_leaves (f : Int → Instr) (bs : List Byte) : (decodeInt f bs).Leaves bs :=
  leaves_takeBytes fun _ _ => leaves_ok _ _

theorem decodeTckCall_leaves (bs : List Byte) : (decodeTckCall bs).Leaves bs := by
  cases bs with
  | nil => trivial
  | cons w bs =>
    simp only [decodeTckCall]
    split
    · trivial
    · exact List.suffix_cons w bs

theorem decodeBypass_leaves (bs : List Byte) : (decodeBypass bs).Leaves bs :=
  leaves_takeBytes fun _ _ => leaves_ok _ _

theorem decodeBypassVec_leaves (bs : List Byte) : (decodeBypassVec bs).Leaves bs := by
  refine leaves_takeBytes fun n rest => ?_
  split
  · trivial
  · exact takeWords_suffix ‹_›

theorem decodeAccess_leaves (c : Config) (off : Nat) (dir : Byte) (bs : List Byte) :
    (decodeAccess c off dir bs).Leaves bs := by
  refine leaves_ite trivial (leaves_ite trivial (leaves_ite ?write ?read))
  case write =>
    have stored (f : Word → Instr) := leaves_takeBytes (k := 4) (bs := bs) fun v rest =>
      leaves_ok (f (BitVec.ofNat 32 (natOfBytes v))) rest
    refine leaves_ite (stored _) <| leaves_ite (stored _) <| leaves_ite (stored _) <|
      leaves_ite ?strobe <| leaves_ite (stored _) <| leaves_ite (stored _) <|
      leaves_ite trivial trivial
    exact leaves_takeBytes fun _ _ => leaves_ite (leaves_ok _ _) trivial
  case read =>
    exact leaves_ite (leaves_ok _ _) <| leaves_ite (leaves_ok _ _) <|
      leaves_ite trivial trivial

theorem decodeAccessCall_leaves (c : Config) (bs : List Byte) : (decodeAccessCall c bs).Leaves bs := by
  refine leaves_takeBytes fun header rest => ?_
  split
  · exact decodeAccess_leaves c _ _ rest
  · trivial

theorem decodeCommand_leaves (c : Config) (bs : List Byte) : (decodeCommand c bs).Leaves bs := by
  cases bs with
  | nil => trivial
  | cons op bs =>
    refine Decoded.Leaves.trans (bs := bs) (leaves_ite ?bytes <| leaves_ite ?bits <|
      leaves_ite ?tms <| leaves_ite ?divisor trivial) (List.suffix_cons op bs)
    case bytes =>
      split
      · next lo hi bs' => exact (leaves_takeBytes fun _ _ => leaves_ok _ _).trans ⟨[lo, hi], rfl⟩
      · trivial
    case bits =>
      split
      · next len d rest => exact leaves_ite ⟨[len, d], rfl⟩ trivial
      · trivial
    case tms =>
      split
      · next len b rest => exact leaves_ite ⟨[len, b], rfl⟩ trivial
      · trivial
    case divisor =>
      split
      · next lo hi rest => exact ⟨[lo, hi], rfl⟩
      · trivial

/-! ### The call -/

theorem decodeTagged_leaves (c : Config) (t : Byte) (bs : List Byte) : (decodeTagged c t bs).Leaves bs := by
  have single (i : Instr) := leaves_ok i bs
  exact leaves_ite (decodeOpen_leaves bs) <| leaves_ite (decodeShift_leaves bs) <|
    leaves_ite (decodeInt_leaves _ bs) <| leaves_ite (decodeInt_leaves _ bs) <| leaves_ite (decodeTckCall_leaves bs) <|
    leaves_ite (single _) <| leaves_ite (single _) <| leaves_ite (decodeAccessCall_leaves c bs) <|
    leaves_ite (decodeCommand_leaves c bs) <| leaves_ite (single _) <| leaves_ite (single _) <|
    leaves_ite (single _) <| leaves_ite (single _) <| leaves_ite (decodeBypass_leaves bs) <|
    leaves_ite (decodeBypassVec_leaves bs) trivial

end

/-- Settles O46: the check passes only well-formed operations, and beside the tag a format takes bytes from the front
alone. -/
theorem decodeAnswersOnlyWellFormed : Obligations.DecodeAnswersOnlyWellFormed := by
  intro c bs tail i h
  cases bs with
  | nil => cases h
  | cons t bs =>
    obtain ⟨htagged, hi⟩ := decode_cons_eq_ok.1 h
    have hleaves := decodeTagged_leaves c t bs
    rw [htagged] at hleaves
    obtain ⟨operands, rfl⟩ := hleaves
    exact ⟨hi, t :: operands, List.cons_ne_nil _ _, rfl⟩

end Sys2Proof
end

section
/-! ## Latching an instruction (O11) -/

namespace Sys2Proof.Machine

/-- With the sequencer idle, each TAP latches its own code, but for a TAP in Test-Logic-Reset (R152, log entry 12). -/
theorem latchCode_of_idle {s : State} {ts : List Tap} (hh : s.handle.isSome = true) (hb : s.mmio.busy = false)
    (ht : s.target = .chain ts) (f : TapParams → Bits) :
    (latchCode f s).out giveNothing = .next ((s.setTarget (.chain (ts.map fun t =>
      if t.known = true ∧ t.state = .testLogicReset then t else { t with instr := f t.par }))).setRet .none) := by
  have latch (t : Tap) : t.latch (f t.par) =
      if t.known = true ∧ t.state = .testLogicReset then t else { t with instr := f t.par } := by simp [Tap.latch]
  rw [latchCode_eq_ok.2 ⟨⟨hh, hb⟩, ts, ht, rfl⟩, Res.out_ok, giveNothing]
  simp only [latch]

/-- Settles O11. -/
theorem instructionLatch : Obligations.InstructionLatch :=
  fun _ _ hh hb ht =>
    ⟨latchCode_of_idle hh hb ht TapParams.idcodeCode, latchCode_of_idle hh hb ht TapParams.bypassCode⟩

end Sys2Proof.Machine
end

section
/-! ## The transport contract

Construction, the setters and the shift primitive, as T.OPEN, the two setters and T.SHIFT show them to the caller
(R130 to R140). -/

namespace Sys2Proof.Machine

/-! ### Shift requests (O32) -/

/-- The empty request does nothing (R132). -/
theorem shift_of_empty {s : State} {h : Handle} (hh : s.handle = some h) : shift 0 [] s = .ok [] s := by
  rw [shift, needHandle_eq_ok.2 ⟨hh, rfl⟩, Res.bind_ok, if_neg (by decide), if_pos rfl]

/-- A request of a negative length, or with a buffer of another length than its own, is refused (R104, R132). -/
theorem shift_of_malformed {s : State} {h : Handle} (hh : s.handle = some h) {n : Int} {buf : List Byte}
    (hbad : n < 0 ∨ buf.length ≠ 2 * bytesFor n.toNat) : shift n buf s = .refused .badShiftRequest := by
  rw [shift, needHandle_eq_ok.2 ⟨hh, rfl⟩, Res.bind_ok, if_pos hbad]

/-- Settles O32. -/
theorem shiftRequestChecks : Obligations.ShiftRequestChecks := by
  intro s hs
  obtain ⟨h, hh⟩ := Option.isSome_iff_exists.1 hs
  exact ⟨congrArg (Res.out · giveCapture) (shift_of_empty hh),
    fun _ _ hbad => congrArg (Res.out · giveCapture) (shift_of_malformed hh hbad)⟩

/-! ### Setters (O5, O7) -/

section
variable {s : State} {v : Int}

/-- On MMIO a divisor in range is a register write (R135, R201). -/
theorem setClockDivisor_of_mmio {u : Nat} (hh : s.handle = some (.mmio u)) (h0 : 0 ≤ v) (h1 : v ≤ s.cfg.divMax) :
    setClockDivisor v s = mmioWrite (fun m => { m with clkdiv := BitVec.ofNat 32 v.toNat }) s := by
  rw [setClockDivisor, needHandle_eq_ok.2 ⟨hh, rfl⟩, Res.bind_ok]
  exact if_neg (by omega)

/-- On MMIO a timing value in range is a register write (R137, R202). -/
theorem setTimingParam_of_mmio {u : Nat} (hh : s.handle = some (.mmio u)) (h0 : 0 ≤ v) (h1 : v ≤ s.cfg.delayMax) :
    setTimingParam v s = mmioWrite (fun m => { m with delay := BitVec.ofNat 32 v.toNat }) s := by
  rw [setTimingParam, needHandle_eq_ok.2 ⟨hh, rfl⟩, Res.bind_ok]
  exact if_neg (by omega)

/-- A divisor command in a write transfer that is accepted sets the adapter's divisor (R225, R317 (e)). -/
theorem usbWrite_setDivisor_of_accepted (hw : s.cfg.wellFormed = true) (hq : s.usb.cmdq = [])
    (hwrites : s.env.writes.head? ≠ some false) (div : Half) :
    usbWrite (encodeCommand s.cfg (.uSetDivisor div)) s =
      .ok () ((s.setUsb { s.usb with div := div }).setEnv { s.env with writes := s.env.writes.tail }) := by
  rw [usbWrite_setDivisor hw hq, usbAccept_eq_ok.2 ⟨hwrites, rfl⟩]
  rfl

/-- On USB the clamped divisor goes to the adapter in one write transfer (R136, R225). -/
theorem setClockDivisor_of_usb {a : UsbAddress} (hh : s.handle = some (.usb a)) (hw : s.cfg.wellFormed = true)
    (hq : s.usb.cmdq = []) (hwrites : s.env.writes.head? ≠ some false) :
    setClockDivisor v s = .ok () ((s.setUsb { s.usb with div := BitVec.ofNat 16 (clampNat v s.cfg.usbDivMax) }).setEnv
      { s.env with writes := s.env.writes.tail }) := by
  rw [setClockDivisor, needHandle_eq_ok.2 ⟨hh, rfl⟩, Res.bind_ok]
  exact usbWrite_setDivisor_of_accepted (s := s.setUsb { s.usb with div := BitVec.ofNat 16 (clampNat v s.cfg.usbDivMax) })
    hw hq hwrites _

/-- On USB the timing value selects the edge of the commands to come (R136). -/
theorem setTimingParam_of_usb {a : UsbAddress} (hh : s.handle = some (.usb a)) :
    setTimingParam v s = .ok () (s.setUsbHost { s.usbHost with edge := decide (v ≠ 0) }) := by
  rw [setTimingParam, needHandle_eq_ok.2 ⟨hh, rfl⟩, Res.bind_ok]
  rfl

end

/-- Saturation is the clamp of R136. -/
theorem clampNat_eq (v : Int) (top : Nat) : clampNat v top = (max 0 (min v top)).toNat := by
  rw [clampNat]
  omega

/-- Settles O5. -/
theorem mmioSettersStoreInRange : Obligations.MmioSettersStoreInRange := by
  intro s u v hh hb
  refine ⟨fun h0 h1 => ?_, fun h0 h1 => ?_⟩
  · exact congrArg (Res.out · giveDone) ((setClockDivisor_of_mmio hh h0 h1).trans (mmioWrite_of_idle hh hb _))
  · exact congrArg (Res.out · giveDone) ((setTimingParam_of_mmio hh h0 h1).trans (mmioWrite_of_idle hh hb _))

/-- Settles O7. -/
theorem usbSettersClamp : Obligations.UsbSettersClamp := by
  intro s a v hh hw hq hwrites
  rw [← clampNat_eq]
  exact ⟨congrArg (Res.out · giveDone) (setClockDivisor_of_usb hh hw hq hwrites),
    congrArg (Res.out · giveDone) (setTimingParam_of_usb hh)⟩

/-! ### Construction (O3) -/

/-- A free value of a bounded register is legal at any width of the register (R31, R47). -/
theorem toNat_ofNat_freeUpTo_le (w draw place max : Nat) : (BitVec.ofNat w (freeUpTo draw place max)).toNat ≤ max := by
  rw [BitVec.toNat_ofNat]
  exact (Nat.mod_le _ _).trans (Nat.lt_succ_iff.1 (Nat.mod_lt _ (Nat.succ_pos max)))

theorem mem_loseChain {draw j : Nat} {ts : List Tap} {t : Tap} (h : t ∈ loseChain draw j ts) :
    ∃ u free, t = Tap.lose u free := by
  induction ts generalizing j with
  | nil => exact absurd h List.not_mem_nil
  | cons x ts ih =>
    obtain rfl | h := List.mem_cons.1 h
    · exact ⟨x, _, rfl⟩
    · exact ih h

/-- The free registers of a lost target are as wide as its TAPs' registers (R47, R48). -/
theorem Target.lose_widthsOk {draw : Nat} {x : Target} {ts : List Tap} (e : x.lose draw = .chain ts) :
    ∀ t ∈ ts, t.widthsOk = true := by
  intro t ht
  cases x with
  | loopback f => cases e
  | chain xs =>
    cases e
    obtain ⟨u, free, rfl⟩ := mem_loseChain ht
    exact u.lose_widthsOk free

/-- Settles O3. -/
theorem openSetsDecidedValues : Obligations.OpenSetsDecidedValues := by
  intro p s hh hc
  have ho := openTransport_eq_ok.2 ⟨hh, hc, rfl⟩
  refine ⟨giveDone () (s.opened (OpenParams.handle p)), congrArg (Res.out · giveDone) ho, rfl, rfl, rfl, rfl, rfl, rfl,
    rfl, rfl, rfl, rfl, rfl, fun ts e => Target.lose_unknown e, State.tapsOk_iff.2 fun ts e => Target.lose_widthsOk e,
    fun _ => ⟨?clkdiv, ?delay, ?div⟩, rfl, rfl, rfl, rfl⟩
  all_goals exact toNat_ofNat_freeUpTo_le _ _ _ _

/-! ### Shifts on the two backends (O30, O36) -/

/-- A full capture read bit by bit. -/
theorem bufBits_packBits {bits : Bits} {n : Nat} (h : bits.length = n) : bufBits (packBits bits) n = bits := by
  subst h
  obtain ⟨-, hat⟩ := captured_packBits bits
  refine List.ext_getElem (by simp [bufBits]) fun i h1 h2 => ?_
  simp [bufBits, hat, h2]

theorem packBits_length {bits : Bits} {n : Nat} (h : bits.length = n) : (packBits bits).length = bytesFor n :=
  h ▸ (captured_packBits bits).1

/-- T.SHIFT with a working engine answers the capture of its cycles and the target they leave (R132, R133). -/
theorem exec_tShift_captures {s u : State} {n : Nat} {buf : List Byte} {bits : Bits} (hs : s.shiftReady) (hn : 0 < n)
    (hbuf : buf.length = 2 * bytesFor n)
    (hu : clockAll s.shiftPoint (vectorOf n (buf.take (bytesFor n)) (buf.drop (bytesFor n))) s = .ok bits u) :
    ∃ t, exec (.tShift n buf) s = .next t ∧ t.ret = .bytes (packBits bits) ∧ t.target = u.target := by
  obtain ⟨t, e, htarget, -⟩ := shift_captures hs hn hbuf hu
  exact ⟨giveCapture (packBits bits) t, congrArg (Res.out · giveCapture) e, rfl, htarget⟩

/-- Settles O30: the cycles of one backend are those of the other, since their wires are the same, and the shift of
either captures them. -/
theorem backendsAgree : Obligations.BackendsAgree := by
  intro s w u n buf bits hsw hww hs hw hsv hwv htarget hdraws hn hbuf hu
  have wire : SameWire s.shiftPoint s w.shiftPoint w := ⟨hwv.trans hsv.symm, htarget.symm, hdraws.symm⟩
  have hlen : bits.length = n := by rw [(clockAll_eq_ok hu).2, vectorOf_length]
  obtain ⟨t1, e1, r1, k1⟩ := exec_tShift_captures ⟨hsw, .inl hs⟩ hn hbuf hu
  obtain ⟨t2, e2, r2, k2⟩ := exec_tShift_captures ⟨hww, .inr hw⟩ hn hbuf (wire.clockAll hu)
  exact ⟨t1, t2, e1, e2, ⟨packBits bits, packBits bits, r1, r2, packBits_length hlen, packBits_length hlen,
    bufBits_packBits hlen, bufBits_packBits hlen⟩, k1, k2⟩

/-- At a valid point the loopback double answers its function at every cycle and stays as it is (R140). -/
theorem clockAll_of_loopback {pt : Nat × Nat} {s : State} {f : LoopFn} (h : s.env.isValid pt = true)
    (ht : s.target = .loopback f) (v : List (Bool × Bool)) :
    clockAll pt v s = .ok (v.map fun c => f.eval c.1 c.2) (s.setDraws (s.draws + v.length)) := by
  induction v generalizing s with
  | nil => rfl
  | cons c v ih =>
    have later := ih (s := s.setDraws (s.draws + 1)) h ht
    rw [clockAll, clock_of_loopback _ _ h ht, Res.bind_ok, later, Res.bind_ok, State.setDraws_draws, Nat.add_assoc,
      Nat.add_comm 1]
    rfl

/-- Settles O36. -/
theorem loopbackReturnsItsFunction : Obligations.LoopbackReturnsItsFunction := by
  intro s f n buf hs hv ht hn hbuf
  have hu := clockAll_of_loopback hv ht (vectorOf n (buf.take (bytesFor n)) (buf.drop (bytesFor n)))
  obtain ⟨t, e, hret, htarget⟩ := exec_tShift_captures hs hn hbuf hu
  refine ⟨t, e, htarget.trans ht, _, hret, packBits_length (by simp), fun i hi => ?_⟩
  obtain ⟨-, hat⟩ := captured_packBits ((vectorOf n (buf.take (bytesFor n)) (buf.drop (bytesFor n))).map
    fun c => f.eval c.1 c.2)
  rw [hat]
  simp [vectorOf, List.getD_eq_getElem?_getD, hi]

end Sys2Proof.Machine
end

section
/-! ## Which operations end in which fatal error

A construction is the only part of an operation that raises TransportOpenFailure; the busy-poll is the only other
source of a fatal error, and its error is TransportTimeout (R311, R316). -/

namespace Sys2Proof.Machine

/-- Where a part of an operation ends in a fatal error, the error is TransportTimeout. -/
def Res.OnlyTimesOut {α : Type} : Res α → Prop
  | .ok _ _ => True
  | .stuck _ => True
  | .fault f => f = .transportTimeout
  | .refused _ => True

section
variable {α β : Type}

theorem Res.OnlyTimesOut.bind {x : Res α} {f : α → State → Res β} (h : x.OnlyTimesOut)
    (k : ∀ a t, (f a t).OnlyTimesOut) : (x.bind f).OnlyTimesOut := by
  cases x with
  | ok a t => exact k a t
  | stuck t => exact h
  | fault e => exact h
  | refused r => exact h

theorem Res.OnlyTimesOut.ite {c : Prop} [Decidable c] {x y : Res α} (h : x.OnlyTimesOut) (k : y.OnlyTimesOut) :
    (if c then x else y).OnlyTimesOut := by
  split
  · exact h
  · exact k

theorem Res.OnlyTimesOut.out {x : Res α} {g : α → State → State} (h : x.OnlyTimesOut) :
    x.out g ≠ .fault .transportOpenFailure := by
  cases x with
  | ok a t => nofun
  | stuck t => nofun
  | fault e => obtain rfl : e = .transportTimeout := h; nofun
  | refused r => nofun

end

/-! ### Errors, the handle and the target -/

theorem raise_onlyTimesOut {k : ErrorKind} (hk : k ≠ .transportOpenFailure) (s : State) : (raise k s).OnlyTimesOut := by
  cases k
  case transportOpenFailure => exact absurd rfl hk
  case transportTimeout => rfl
  all_goals trivial

theorem needHandle_onlyTimesOut (s : State) : (needHandle s).OnlyTimesOut := by
  unfold needHandle; split <;> trivial

theorem needMmio_onlyTimesOut (s : State) : (needMmio s).OnlyTimesOut := by
  unfold needMmio; split <;> trivial

theorem needUsb_onlyTimesOut (s : State) : (needUsb s).OnlyTimesOut := by
  unfold needUsb; split <;> trivial

theorem needIdentity_onlyTimesOut (s : State) : (needIdentity s).OnlyTimesOut := by
  unfold needIdentity; split <;> trivial

theorem needTarget_onlyTimesOut (s : State) : (needTarget s).OnlyTimesOut :=
  (needHandle_onlyTimesOut s).bind fun _ _ => .ite trivial trivial

theorem clock_onlyTimesOut (pt : Nat × Nat) (tms tdi : Bool) (s : State) : (clock pt tms tdi s).OnlyTimesOut := by
  refine .ite ?_ trivial
  split
  · trivial
  · split <;> trivial

theorem clockAll_onlyTimesOut (pt : Nat × Nat) (v : List (Bool × Bool)) (s : State) :
    (clockAll pt v s).OnlyTimesOut := by
  induction v generalizing s with
  | nil => trivial
  | cons c v ih =>
    exact (clock_onlyTimesOut pt c.1 c.2 s).bind fun _ t => (ih t).bind fun _ _ => trivial

theorem tckIn_onlyTimesOut (x : TapState) (tms tdi : Bool) (s : State) : (tckIn x tms tdi s).OnlyTimesOut := by
  refine (needTarget_onlyTimesOut s).bind fun _ t => ?_
  split
  · trivial
  · refine .ite ?_ trivial
    split <;> trivial

theorem latchCode_onlyTimesOut (f : TapParams → Bits) (s : State) : (latchCode f s).OnlyTimesOut := by
  refine (needTarget_onlyTimesOut s).bind fun _ t => ?_
  split <;> trivial

/-! ### The MMIO side -/

theorem engineTick_onlyTimesOut (s : State) : (engineTick s).OnlyTimesOut :=
  .ite ((clock_onlyTimesOut _ _ _ s).bind fun _ _ => trivial) trivial

theorem engineTicks_onlyTimesOut (k : Nat) (s : State) : (engineTicks k s).OnlyTimesOut := by
  induction k generalizing s with
  | zero => trivial
  | succ k ih => exact .ite ((engineTick_onlyTimesOut s).bind fun _ t => ih t) trivial

theorem mmioWrite_onlyTimesOut (f : Mmio → Mmio) (s : State) : (mmioWrite f s).OnlyTimesOut :=
  (needMmio_onlyTimesOut s).bind fun _ _ => .ite trivial trivial

theorem mmioWriteIn_onlyTimesOut (max : Nat) (v : Word) (f : Mmio → Mmio) (s : State) :
    (mmioWriteIn max v f s).OnlyTimesOut :=
  (needMmio_onlyTimesOut s).bind fun _ t => .ite trivial (.ite (raise_onlyTimesOut (by decide) t) trivial)

theorem mmioStart_onlyTimesOut (s : State) : (mmioStart s).OnlyTimesOut :=
  (needMmio_onlyTimesOut s).bind fun _ _ => .ite trivial (.ite trivial trivial)

theorem mmioStatus_onlyTimesOut (s : State) : (mmioStatus s).OnlyTimesOut :=
  (needMmio_onlyTimesOut s).bind fun _ _ => trivial

theorem mmioTdo_onlyTimesOut (s : State) : (mmioTdo s).OnlyTimesOut :=
  (needMmio_onlyTimesOut s).bind fun _ _ => .ite trivial trivial

theorem busyPoll_onlyTimesOut (pace : List Nat) (polls : Nat) (s : State) : (busyPoll pace polls s).OnlyTimesOut := by
  induction pace generalizing polls s with
  | nil =>
    unfold busyPoll
    exact .ite ((engineTicks_onlyTimesOut _ s).bind fun _ t => (mmioStatus_onlyTimesOut t).bind fun _ _ => trivial)
      (.ite rfl trivial)
  | cons k rest ih =>
    unfold busyPoll
    exact (engineTicks_onlyTimesOut k _).bind fun _ t => (mmioStatus_onlyTimesOut t).bind fun _ u =>
      .ite (.ite rfl (ih _ u)) trivial

theorem chunkWrite_onlyTimesOut (first same : Bool) (f : Mmio → Mmio) (g : Shadow → Shadow) (s : State) :
    (chunkWrite first same f g s).OnlyTimesOut :=
  .ite trivial ((mmioWrite_onlyTimesOut f s).bind fun _ _ => trivial)

theorem mmioChunk_onlyTimesOut (tms tdi : List Byte) (first : Bool) (s : State) :
    (mmioChunk tms tdi first s).OnlyTimesOut :=
  (chunkWrite_onlyTimesOut _ _ _ _ s).bind fun _ s1 =>
  (chunkWrite_onlyTimesOut _ _ _ _ s1).bind fun _ s2 =>
  (chunkWrite_onlyTimesOut _ _ _ _ s2).bind fun _ s3 =>
  (mmioStart_onlyTimesOut s3).bind fun _ s4 =>
  (busyPoll_onlyTimesOut _ _ s4).bind fun _ s5 =>
  (mmioTdo_onlyTimesOut s5).bind fun _ _ => trivial

theorem mmioLoop_onlyTimesOut (tms tdi : List Byte) (fuel : Nat) (first : Bool) (s : State) :
    (mmioLoop tms tdi fuel first s).OnlyTimesOut := by
  induction fuel generalizing first s with
  | zero => trivial
  | succ fuel ih => exact .ite trivial ((mmioChunk_onlyTimesOut tms tdi first s).bind fun _ t => ih false t)

theorem mmioShift_onlyTimesOut (n : Nat) (tms tdi : List Byte) (s : State) : (mmioShift n tms tdi s).OnlyTimesOut :=
  (mmioLoop_onlyTimesOut tms tdi _ _ _).bind fun _ _ => trivial

/-! ### The USB side -/

theorem adapterByteShift_onlyTimesOut (e : Bool) (d : List Byte) (s : State) :
    (adapterByteShift e d s).OnlyTimesOut := by
  induction d generalizing s with
  | nil => trivial
  | cons x d ih =>
    have first : (adapterByte e x s).OnlyTimesOut := (clockAll_onlyTimesOut _ _ s).bind fun _ _ => trivial
    exact first.bind fun _ t => ih t

theorem adapterBitShift_onlyTimesOut (e : Bool) (r : Nat) (d : Byte) (s : State) :
    (adapterBitShift e r d s).OnlyTimesOut :=
  (clockAll_onlyTimesOut _ _ s).bind fun _ _ => trivial

theorem adapterTmsShift_onlyTimesOut (e : Bool) (r : Nat) (b : Byte) (s : State) :
    (adapterTmsShift e r b s).OnlyTimesOut :=
  (clockAll_onlyTimesOut _ _ s).bind fun _ _ => trivial

theorem adapterExec_onlyTimesOut (i : Instr) (s : State) : (adapterExec i s).OnlyTimesOut := by
  unfold adapterExec
  split
  · exact adapterByteShift_onlyTimesOut _ _ s
  · exact adapterBitShift_onlyTimesOut _ _ _ s
  · exact adapterTmsShift_onlyTimesOut _ _ _ s
  · trivial
  · trivial

theorem adapterRun_onlyTimesOut (fuel : Nat) (s : State) : (adapterRun fuel s).OnlyTimesOut := by
  induction fuel generalizing s with
  | zero => trivial
  | succ fuel ih =>
    unfold adapterRun
    split
    · trivial
    · trivial
    · exact (adapterExec_onlyTimesOut _ _).bind fun _ t => ih t

theorem usbAccept_onlyTimesOut (s : State) : (usbAccept s).OnlyTimesOut := by
  unfold usbAccept; split <;> trivial

theorem usbWrite_onlyTimesOut (bytes : List Byte) (s : State) : (usbWrite bytes s).OnlyTimesOut :=
  (usbAccept_onlyTimesOut s).bind fun _ _ => adapterRun_onlyTimesOut _ _

theorem usbRead_onlyTimesOut (deliveries : List Transfer) (k : Nat) (got : List Byte) (s : State) :
    (usbRead deliveries k got s).OnlyTimesOut := by
  induction deliveries generalizing k got s with
  | nil => exact .ite trivial trivial
  | cons d rest ih =>
    cases d with
    | error => trivial
    | bytes d => exact .ite trivial (ih _ _ _)

theorem usbFlush_onlyTimesOut (s : State) : (usbFlush s).OnlyTimesOut :=
  .ite trivial ((usbWrite_onlyTimesOut _ _).bind fun _ t => (usbRead_onlyTimesOut _ _ _ t).bind fun _ _ => trivial)

theorem usbEmit_onlyTimesOut (bytes : List Byte) (ds : List Descriptor) (s : State) :
    (usbEmit bytes ds s).OnlyTimesOut := by
  refine Res.OnlyTimesOut.bind ?_ fun _ _ => trivial
  exact .ite (usbFlush_onlyTimesOut _) trivial

theorem byteArm_onlyTimesOut (i : Nat) (d : Byte) (s : State) : (byteArm i d s).OnlyTimesOut := by
  unfold byteArm
  split
  · trivial
  · refine Res.OnlyTimesOut.bind ?_ fun _ _ => trivial
    exact .ite (usbFlush_onlyTimesOut s) trivial

theorem tmsArm_onlyTimesOut (i : Nat) (m d : Byte) (bits : List Nat) (s : State) :
    (tmsArm i m d bits s).OnlyTimesOut := by
  induction bits generalizing s with
  | nil => trivial
  | cons b bits ih => exact (usbEmit_onlyTimesOut _ _ s).bind fun _ _ => ih _

theorem usbByte_onlyTimesOut (n : Nat) (tms tdi : List Byte) (s : State) : (usbByte n tms tdi s).OnlyTimesOut :=
  (Res.OnlyTimesOut.ite (byteArm_onlyTimesOut _ _ s)
    (.ite (usbEmit_onlyTimesOut _ _ s) (tmsArm_onlyTimesOut _ _ _ _ s))).bind fun _ _ => trivial

theorem usbLoop_onlyTimesOut (n : Nat) (tms tdi : List Byte) (fuel : Nat) (s : State) :
    (usbLoop n tms tdi fuel s).OnlyTimesOut := by
  induction fuel generalizing s with
  | zero => trivial
  | succ fuel ih => exact .ite ((usbByte_onlyTimesOut n tms tdi s).bind fun _ t => ih t) trivial

theorem usbShift_onlyTimesOut (n : Nat) (tms tdi : List Byte) (s : State) : (usbShift n tms tdi s).OnlyTimesOut :=
  (usbLoop_onlyTimesOut n tms tdi _ _).bind fun _ t => (usbFlush_onlyTimesOut t).bind fun _ _ => trivial

/-! ### Operations of the contract and probes -/

theorem shift_onlyTimesOut (n : Int) (buf : List Byte) (s : State) : (shift n buf s).OnlyTimesOut := by
  refine (needHandle_onlyTimesOut s).bind fun h t => .ite trivial (.ite trivial ?_)
  cases h with
  | mmio i => exact mmioShift_onlyTimesOut _ _ _ t
  | usb a => exact usbShift_onlyTimesOut _ _ _ t

theorem setClockDivisor_onlyTimesOut (v : Int) (s : State) : (setClockDivisor v s).OnlyTimesOut := by
  refine (needHandle_onlyTimesOut s).bind fun h t => ?_
  cases h with
  | mmio i => exact .ite (raise_onlyTimesOut (by decide) t) (mmioWrite_onlyTimesOut _ t)
  | usb a => exact usbWrite_onlyTimesOut _ _

theorem setTimingParam_onlyTimesOut (v : Int) (s : State) : (setTimingParam v s).OnlyTimesOut := by
  refine (needHandle_onlyTimesOut s).bind fun h t => ?_
  cases h with
  | mmio i => exact .ite (raise_onlyTimesOut (by decide) t) (mmioWrite_onlyTimesOut _ t)
  | usb a => trivial

theorem scanChain_onlyTimesOut (s : State) : (scanChain s).OnlyTimesOut :=
  (shift_onlyTimesOut _ _ s).bind fun _ _ => trivial

theorem probeIdcode_onlyTimesOut (s : State) : (probeIdcode s).OnlyTimesOut :=
  (needHandle_onlyTimesOut s).bind fun _ s1 =>
  (needIdentity_onlyTimesOut s1).bind fun _ s2 =>
  (shift_onlyTimesOut _ _ s2).bind fun _ _ => trivial

theorem probeBypassVec_onlyTimesOut (values : List Word) (s : State) : (probeBypassVec values s).OnlyTimesOut :=
  (needHandle_onlyTimesOut s).bind fun _ s1 =>
  (needIdentity_onlyTimesOut s1).bind fun _ s2 =>
  .ite trivial ((shift_onlyTimesOut _ _ s2).bind fun _ s3 => (shift_onlyTimesOut _ _ s3).bind fun _ _ => trivial)

theorem detectSweep_onlyTimesOut (tps : List Nat) (s : State) : (detectSweep tps s).OnlyTimesOut := by
  induction tps generalizing s with
  | nil => exact raise_onlyTimesOut (by decide) s
  | cons tp rest ih =>
    refine (setTimingParam_onlyTimesOut tp s).bind fun _ s1 => (scanChain_onlyTimesOut s1).bind fun _ s2 => ?_
    split
    · trivial
    · exact ih s2

theorem detect_onlyTimesOut (s : State) : (detect s).OnlyTimesOut := by
  refine (needHandle_onlyTimesOut s).bind fun _ s1 => ?_
  split
  · trivial
  · exact (setClockDivisor_onlyTimesOut _ s1).bind fun _ s2 => detectSweep_onlyTimesOut _ s2

/-! ### Every operation (O4) -/

/-- No operation but T.OPEN raises TransportOpenFailure (R311). -/
theorem exec_ne_openFailure {i : Instr} (hi : ∀ p, i ≠ .tOpen p) (s : State) :
    exec i s ≠ .fault .transportOpenFailure := by
  have ofUsb {f : State → Res Unit} (h : ∀ t, (f t).OnlyTimesOut) :
      ((needUsb s).bind fun _ t => f t).out giveSent ≠ .fault .transportOpenFailure :=
    ((needUsb_onlyTimesOut s).bind fun _ t => h t).out
  cases i
  case tOpen p => exact absurd rfl (hi p)
  case tShift n buf => exact (shift_onlyTimesOut n buf s).out
  case tSetClockDivisor v => exact (setClockDivisor_onlyTimesOut v s).out
  case tSetTimingParam v => exact (setTimingParam_onlyTimesOut v s).out
  case jIdcode | jBypass => exact (latchCode_onlyTimesOut _ s).out
  case mWrLength v | mWrTms v | mWrTdi v => exact (mmioWrite_onlyTimesOut _ s).out
  case mWrStart => exact (mmioStart_onlyTimesOut s).out
  case mRdStatus => exact (mmioStatus_onlyTimesOut s).out
  case mRdTdo => exact (mmioTdo_onlyTimesOut s).out
  case mWrClkdiv v | mWrDelay v => exact (mmioWriteIn_onlyTimesOut _ v _ s).out
  case uByteShift e d => exact ofUsb (adapterByteShift_onlyTimesOut e d)
  case uBitShift e r d => exact ofUsb (adapterBitShift_onlyTimesOut e r d)
  case uTmsShift e r b => exact ofUsb fun t => adapterTmsShift_onlyTimesOut e r b (t.setUsbHost _)
  case uSetDivisor div => exact ofUsb fun _ => trivial
  case uFlush => exact ofUsb usbFlush_onlyTimesOut
  case pProbeIdcode => exact (probeIdcode_onlyTimesOut s).out
  case pScanChain => exact (scanChain_onlyTimesOut s).out
  case pDetect => exact (detect_onlyTimesOut s).out
  case pProbeBypass v => exact (probeBypassVec_onlyTimesOut [v] s).out
  case pProbeBypassVec vs => exact (probeBypassVec_onlyTimesOut vs s).out
  all_goals exact (tckIn_onlyTimesOut _ _ _ s).out

/-- A construction fails where no handle exists and its device or its offset table fails (R130, R311). -/
theorem exec_tOpen_eq_openFailure {p : OpenParams} {s : State} :
    exec (.tOpen p) s = .fault .transportOpenFailure ↔ s.handle = none ∧ s.canOpen p = false := by
  unfold exec execTOpen openTransport
  cases hh : s.handle with
  | some h => simp
  | none => cases hc : s.canOpen p <;> simp [hc, raise]

theorem Config.offsetOk_eq_false {c : Config} {o : Nat} :
    c.offsetOk o = false ↔ o % 4 ≠ 0 ∨ c.regionBytes < o + 4 := by
  rw [Config.offsetOk, Bool.and_eq_false_iff, decide_eq_false_iff_not, decide_eq_false_iff_not, Nat.not_le]

/-- The offset table fails where one of its offsets does (R66, R130). -/
theorem Config.tableOk_eq_false {c : Config} :
    c.tableOk = false ↔ ∃ o ∈ c.offsets, o % 4 ≠ 0 ∨ c.regionBytes < o + 4 := by
  simp only [Config.tableOk, List.all_eq_false, Bool.not_eq_true, Config.offsetOk_eq_false]

theorem State.canOpen_mmio_eq_false {s : State} {u : Nat} : s.canOpen (.mmio u) = false ↔
    u ∉ s.env.uioNodes ∨ ∃ o ∈ s.cfg.offsets, o % 4 ≠ 0 ∨ s.cfg.regionBytes < o + 4 := by
  rw [State.canOpen, Bool.and_eq_false_iff, decide_eq_false_iff_not, Config.tableOk_eq_false]

theorem State.canOpen_usb_eq_false {s : State} {a : UsbAddress} :
    s.canOpen (.usb a) = false ↔ a ∉ s.env.usbDevices := by
  rw [State.canOpen, decide_eq_false_iff_not]

/-- Settles O4: any other operation's only fatal error is TransportTimeout, and a construction's is this one. -/
theorem openFailureOnlyAtConstruction : Obligations.OpenFailureOnlyAtConstruction := by
  intro i s
  constructor
  case mp =>
    intro e
    obtain ⟨p, rfl⟩ : ∃ p, i = .tOpen p := by
      by_contra hi
      exact exec_ne_openFailure (fun p hp => hi ⟨p, hp⟩) s e
    obtain ⟨hh, hc⟩ := exec_tOpen_eq_openFailure.1 e
    refine ⟨p, rfl, hh, ?_⟩
    cases p with
    | mmio u => exact State.canOpen_mmio_eq_false.1 hc
    | usb a => exact State.canOpen_usb_eq_false.1 hc
  case mpr =>
    rintro ⟨p, rfl, hh, hc⟩
    refine exec_tOpen_eq_openFailure.2 ⟨hh, ?_⟩
    cases p with
    | mmio u => exact State.canOpen_mmio_eq_false.2 hc
    | usb a => exact State.canOpen_usb_eq_false.2 hc

end Sys2Proof.Machine
end

section
/-! ## One cycle of one TAP

What each part of a TAP's cycle does (R151): the action of the state it is spent in, then the transition, with the
actions on entering a state. -/

namespace Sys2Proof.Machine

section
variable {t u : Tap} {tms tdi : Bool} {free : TapRegs}

/-! ### The action of a state -/

/-- An action changes the two shift stages and nothing else. -/
theorem Tap.act_eq_some (h : t.act tdi = some u) : u = { t with irSr := u.irSr, drSr := u.drSr } := by
  unfold Tap.act at h
  split at h
  · split at h
    · cases h; rfl
    · cases h; rfl
    · cases h
  · split at h
    · cases h
    · cases h; rfl
  all_goals cases h; rfl

/-- Only a cycle in Capture-DR or Shift-DR under a reserved instruction is refused (R172). -/
theorem Tap.act_eq_none_iff :
    t.act tdi = none ↔ (t.state = .captureDr ∨ t.state = .shiftDr) ∧ t.selected = .undescribed := by
  unfold Tap.act
  split
  · split <;> simp_all
  · split <;> simp_all
  all_goals simp_all

theorem Tap.act_captureDr_idcode (hx : t.state = .captureDr) (hi : t.selected = .idcode) :
    t.act tdi = some { t with drSr := wordBits t.par.idcodeValue } := by simp [Tap.act, hx, hi]

theorem Tap.act_captureDr_bypass (hx : t.state = .captureDr) (hi : t.selected = .bypass) :
    t.act tdi = some { t with drSr := [false] } := by simp [Tap.act, hx, hi]

theorem Tap.act_shiftDr (hx : t.state = .shiftDr) (hi : t.selected ≠ .undescribed) :
    t.act tdi = some { t with drSr := shiftStage t.drSr tdi } := by simp [Tap.act, hx]

theorem Tap.act_captureIr (hx : t.state = .captureIr) :
    t.act tdi = some { t with irSr := bitsOfNat t.par.irLength t.par.irCapture } := by simp [Tap.act, hx]

theorem Tap.act_shiftIr (hx : t.state = .shiftIr) : t.act tdi = some { t with irSr := shiftStage t.irSr tdi } := by
  simp [Tap.act, hx]

/-- A cycle in a state that neither captures nor shifts has no action (R151). -/
theorem Tap.act_of_other (h : t.state ∉ [.captureDr, .shiftDr, .captureIr, .shiftIr]) : t.act tdi = some t := by
  unfold Tap.act
  split <;> simp_all

/-! ### The register that an instruction selects -/

theorem Tap.selected_idcode (h : t.par.hasIdcode = true) (hi : t.instr = t.par.idcodeCode) : t.selected = .idcode := by
  simp [Tap.selected, h, hi]

theorem Tap.selected_bypass (h : t.par.hasIdcode = true → t.instr ≠ t.par.idcodeCode) (hi : t.instr = t.par.bypassCode) :
    t.selected = .bypass := by
  unfold Tap.selected
  rw [if_neg (by simpa using h), if_pos hi]

theorem Tap.selected_undescribed (h : t.instr ≠ t.par.idcodeCode) (hi : t.instr ≠ t.par.bypassCode) :
    t.selected = .undescribed := by simp [Tap.selected, h, hi]

/-! ### The transition -/

/-- A transition changes the state and the current instruction, and nothing else. -/
theorem Tap.enter_eq (t : Tap) (tms : Bool) :
    t.enter tms = { t with state := tapNext t.state tms, instr := (t.enter tms).instr } := by
  unfold Tap.enter
  split
  · rename_i h; rw [h]
  · rename_i h; rw [h]
  · rfl

@[simp] theorem Tap.enter_state (t : Tap) (tms : Bool) : (t.enter tms).state = tapNext t.state tms := by
  rw [Tap.enter_eq]

@[simp] theorem Tap.enter_known (t : Tap) (tms : Bool) : (t.enter tms).known = t.known := by rw [Tap.enter_eq]

/-- Entering Update-IR makes the shift stage the current instruction (R167). -/
theorem Tap.enter_updateIr (h : tapNext t.state tms = .updateIr) :
    t.enter tms = { t with state := .updateIr, instr := t.irSr } := by simp [Tap.enter, h]

/-- Entering Test-Logic-Reset sets the reset instruction (R152). -/
theorem Tap.enter_testLogicReset (h : tapNext t.state tms = .testLogicReset) :
    t.enter tms = { t with state := .testLogicReset, instr := t.par.resetCode } := by simp [Tap.enter, h]

/-- Entering any other state has no action. -/
theorem Tap.enter_other {x : TapState} (hx : t.state = x) (h : tapNext x tms ∉ [.updateIr, .testLogicReset]) :
    t.enter tms = { t with state := tapNext x tms } := by
  subst hx
  unfold Tap.enter
  split <;> simp_all

/-! ### The cycle -/

theorem Tap.cycle_of_known (hk : t.known = true) (ha : t.act tdi = some u) :
    t.cycle tms tdi free = some (u.enter tms) := by simp [Tap.cycle, hk, ha]

/-- Where the successor is neither Update-IR nor Test-Logic-Reset, the cycle is the action and the new state. -/
theorem Tap.cycle_of_next_other {x : TapState} (hk : t.known = true) (hx : t.state = x) (ha : t.act tdi = some u)
    (hn : tapNext x tms ∉ [.updateIr, .testLogicReset]) :
    t.cycle tms tdi free = some { u with state := tapNext x tms } := by
  rw [Tap.cycle_of_known hk ha, Tap.enter_other (by rw [Tap.act_eq_some ha, hx]) hn]

theorem Tap.cycle_of_known_refused (hk : t.known = true) (ha : t.act tdi = none) : t.cycle tms tdi free = none := by
  simp [Tap.cycle, hk, ha]

theorem Tap.cycle_of_unknown (hk : t.known = false) : t.cycle tms tdi free = some (t.cycleUnknown tms free) := by
  simp [Tap.cycle, hk]

/-- A known TAP goes to the successor that TMS selects and stays known. -/
theorem Tap.cycle_known (hk : t.known = true) (h : t.cycle tms tdi free = some u) :
    u.known = true ∧ u.state = tapNext t.state tms := by
  simp only [Tap.cycle, hk, if_true, Option.map_eq_some_iff] at h
  obtain ⟨v, hv, rfl⟩ := h
  have e := Tap.act_eq_some hv
  exact ⟨by rw [Tap.enter_known, e, hk], by rw [Tap.enter_state, e]⟩

/-- The fifth TMS one in a row makes an unspecified TAP known, in Test-Logic-Reset (R168, log entry 4). -/
theorem Tap.cycleUnknown_fifth (h : 4 ≤ t.ones) (free : TapRegs) : t.cycleUnknown true free =
    { t.lose free with known := true, state := .testLogicReset, instr := t.par.resetCode } := by
  simp [Tap.cycleUnknown, h]

/-- Fewer leave it unspecified, one more counted (log entry 4). -/
theorem Tap.cycleUnknown_counts (h : t.ones < 4) (free : TapRegs) :
    t.cycleUnknown true free = { t.lose free with ones := t.ones + 1 } := by
  simp [Tap.cycleUnknown, Nat.not_le.2 h]

/-- A TMS zero begins the count anew. -/
theorem Tap.cycleUnknown_zero (t : Tap) (free : TapRegs) : t.cycleUnknown false free = t.lose free := rfl

/-- TDO is undetermined while the TAP is unspecified (R151). -/
theorem Tap.tdo_of_unknown (hk : t.known = false) : t.tdo = none := by simp [Tap.tdo, hk]

theorem Tap.tdo_shiftDr (hk : t.known = true) (hx : t.state = .shiftDr) : t.tdo = t.drSr.head? := by
  simp [Tap.tdo, hk, hx]

theorem Tap.tdo_shiftIr (hk : t.known = true) (hx : t.state = .shiftIr) : t.tdo = t.irSr.head? := by
  simp [Tap.tdo, hk, hx]

/-- TDO is not driven outside the two shift states (R169). -/
theorem Tap.tdo_of_not_shift (h : t.state ≠ .shiftDr) (h' : t.state ≠ .shiftIr) : t.tdo = none := by
  unfold Tap.tdo
  split
  · split <;> simp_all
  · rfl

end

/-! ### The reset instruction (O51) -/

section
variable {t u : Tap} {tms tdi : Bool} {free : TapRegs}

theorem Tap.resetOk_iff :
    t.resetOk = true ↔ (t.known = true → t.state = .testLogicReset → t.instr = t.par.resetCode) := by
  simp only [Tap.resetOk, Bool.or_eq_true, Bool.not_eq_true', decide_eq_true_eq, decide_eq_false_iff_not]
  cases t.known <;> simp [imp_iff_not_or]

theorem Tap.enter_resetOk (t : Tap) (tms : Bool) : (t.enter tms).resetOk = true := by
  rw [Tap.resetOk_iff, Tap.enter_state]
  intro _ h
  rw [Tap.enter_testLogicReset h]

/-- Whatever a TAP held before, a cycle leaves no other instruction in Test-Logic-Reset than the reset instruction. -/
theorem Tap.cycle_resetOk (h : t.cycle tms tdi free = some u) : u.resetOk = true := by
  unfold Tap.cycle at h
  split at h
  · obtain ⟨v, -, rfl⟩ := Option.map_eq_some_iff.1 h
    exact v.enter_resetOk tms
  · cases h
    rw [Tap.resetOk_iff]
    unfold Tap.cycleUnknown
    dsimp only
    split
    · split
      · exact fun _ _ => rfl
      · exact fun hk => absurd hk Bool.false_ne_true
    · exact fun hk => absurd hk Bool.false_ne_true

/-- A latch leaves the instruction alone in Test-Logic-Reset (R152). -/
theorem Tap.latch_resetOk {code : Bits} (h : t.resetOk = true) : (t.latch code).resetOk = true := by
  unfold Tap.latch
  split
  · exact h
  · rename_i hx
    rw [Tap.resetOk_iff]
    intro hk hs
    exact absurd (show (t.known && decide (t.state = .testLogicReset)) = true by simp_all) hx

theorem Tap.Move.resetOk (m : t.Move u) (h : t.resetOk = true) : u.resetOk = true := by
  cases m with
  | cycle tms tdi free hc => exact Tap.cycle_resetOk hc
  | lose free => rfl
  | latchIdcode => exact Tap.latch_resetOk h
  | latchBypass => exact Tap.latch_resetOk h

theorem State.resetInstrOk_iff {s : State} :
    s.resetInstrOk = true ↔ ∀ ts, s.target = .chain ts → ∀ t ∈ ts, t.resetOk = true := by
  unfold State.resetInstrOk
  cases s.target <;> simp

end

/-- Settles O51: a TAP comes into Test-Logic-Reset by a cycle, which sets the reset instruction, and no latch changes the
instruction there. -/
theorem resetInstructionKept : Obligations.ResetInstructionKept := by
  intro s t hs e
  exact State.resetInstrOk_iff.2 (step_keeps_of_move (fun _ _ m => m.forall_taps fun _ _ h => h.resetOk)
    (State.resetInstrOk_iff.1 hs) e)

end Sys2Proof.Machine
end

section
/-! ## J.TCK on one TAP

With the sequencer idle, the operation that the TAP's state selects runs one cycle of the TAP (R94, R151). -/

namespace Sys2Proof.Machine

section
variable {s : State} {t u : Tap} {i : Instr} {x : TapState} {tms tdi : Bool}

theorem chainCycle_singleton (draw : Nat) (tms : Bool) (j : Nat) (tdi : Bool) (t : Tap) :
    chainCycle draw tms j tdi [t] = (t.cycle tms tdi (Config.freeTap draw j)).map fun u => ([u], t.tdo) := by
  cases h : t.cycle tms tdi (Config.freeTap draw j) <;> simp [chainCycle, h]

theorem chainCycle_cons {draw j : Nat} {v : Tap} {vs us : List Tap} {o : Option Bool}
    (ht : t.cycle tms tdi (Config.freeTap draw j) = some u)
    (hv : chainCycle draw tms (j + 1) (t.tdo.getD (Config.freeBit draw (j + 1))) (v :: vs) = some (us, o)) :
    chainCycle draw tms j tdi (t :: v :: vs) = some (u :: us, o) := by
  rw [chainCycle, ht]
  simp only [hv]

/-- One cycle of a target of one TAP, which is in the state that the operation names or unspecified (log entry 13). -/
theorem tckIn_singleton (hh : s.handle.isSome = true) (hb : s.mmio.busy = false) (ht : s.target = .chain [t])
    (hx : t.known = true → t.state = x) : tckIn x tms tdi s =
      match t.cycle tms tdi (Config.freeTap s.draws 0) with
      | some u => .ok t.tdo ((s.setTarget (.chain [u])).setDraws (s.draws + 1))
      | none => .refused .reservedTapInstruction := by
  have hin : tapsIn x [t] = true := by
    cases hk : t.known <;> simp [tapsIn, hk]
    exact hx hk
  rw [tckIn, needTarget_eq_ok.2 ⟨hh, hb, rfl⟩, Res.bind_ok]
  simp only [ht, hin, if_true, chainCycle_singleton]
  cases t.cycle tms tdi (Config.freeTap s.draws 0) <;> rfl

theorem exec_tck_of_cycle (hh : s.handle.isSome = true) (hb : s.mmio.busy = false) (ht : s.target = .chain [t])
    (hi : i.tck? = some (x, tms, tdi)) (hx : t.known = true → t.state = x)
    (hc : t.cycle tms tdi (Config.freeTap s.draws 0) = some u) : exec i s = .next (s.cycled u t.tdo) := by
  rw [exec_of_tck hi, tckIn_singleton hh hb ht hx, hc]
  rfl

theorem exec_tck_of_refused (hh : s.handle.isSome = true) (hb : s.mmio.busy = false) (ht : s.target = .chain [t])
    (hi : i.tck? = some (x, tms, tdi)) (hx : t.known = true → t.state = x)
    (hc : t.cycle tms tdi (Config.freeTap s.draws 0) = none) : exec i s = .refused .reservedTapInstruction := by
  rw [exec_of_tck hi, tckIn_singleton hh hb ht hx, hc]
  rfl

end

/-! ### A known TAP (O8, O9, O10) -/

section
variable {s : State} {t u : Tap} {i : Instr} {x : TapState} {tms tdi : Bool} (hh : s.handle.isSome = true)
  (hb : s.mmio.busy = false) (ht : s.target = .chain [t]) (hk : t.known = true)
include hh hb ht hk

/-- The action of the TAP's state, then its transition (R151). -/
theorem exec_tck_of_act (hi : i.tck? = some (t.state, tms, tdi)) (ha : t.act tdi = some u) :
    exec i s = .next (s.cycled (u.enter tms) t.tdo) :=
  exec_tck_of_cycle hh hb ht hi (fun _ => rfl) (Tap.cycle_of_known hk ha)

theorem exec_tck_of_act_none (hi : i.tck? = some (t.state, tms, tdi)) (ha : t.act tdi = none) :
    exec i s = .refused .reservedTapInstruction :=
  exec_tck_of_refused hh hb ht hi (fun _ => rfl) (Tap.cycle_of_known_refused hk ha)

/-- In a state that neither captures nor shifts, the cycle is the transition alone, and TDO is not driven. -/
theorem exec_tck_of_other (hi : i.tck? = some (t.state, tms, tdi))
    (hx : t.state ∉ [.captureDr, .shiftDr, .captureIr, .shiftIr]) :
    exec i s = .next (s.cycled (t.enter tms) none) := by
  have hdo : t.tdo = none := Tap.tdo_of_not_shift (fun e => hx (by simp [e])) fun e => hx (by simp [e])
  rw [exec_tck_of_act hh hb ht hk hi (Tap.act_of_other hx), hdo]

theorem exec_tck_of_next_other {o : Option Bool} (hx : t.state = x) (hi : i.tck? = some (x, tms, tdi))
    (ha : t.act tdi = some u) (hdo : t.tdo = o) (hn : tapNext x tms ∉ [.updateIr, .testLogicReset]) :
    exec i s = .next (s.cycled { u with state := tapNext x tms } o) :=
  hdo ▸ exec_tck_of_cycle hh hb ht hi (fun _ => hx) (Tap.cycle_of_next_other hk hx ha hn)

end

/-- Settles O8, row by row. -/
theorem tckInDataColumn : Obligations.TckInDataColumn := by
  intro s t tms tdi hh hb ht hk
  refine ⟨fun hx => ?testLogicReset, fun hx => ?runTestIdle, fun hx => ?selectDrScan, fun hx hid hi => ?captureIdcode,
    fun hx hid hi => ?captureBypass, fun hx hi => ?shiftDr, fun hx => ?exit1Dr, fun hx => ?pauseDr, fun hx => ?exit2Dr,
    fun hx => ?updateDr⟩
  case testLogicReset =>
    rw [exec_tck_of_other hh hb ht hk (by rw [hx]; rfl) (by simp [hx])]
    cases tms with
    | true => rw [Tap.enter_testLogicReset (by rw [hx]; rfl), ← hx]; rfl
    | false => rw [Tap.enter_other hx (by decide)]; rfl
  case captureIdcode =>
    exact exec_tck_of_next_other hh hb ht hk hx rfl (Tap.act_captureDr_idcode hx (Tap.selected_idcode hid hi))
      (Tap.tdo_of_not_shift (by simp [hx]) (by simp [hx])) (by cases tms <;> decide)
  case captureBypass =>
    exact exec_tck_of_next_other hh hb ht hk hx rfl (Tap.act_captureDr_bypass hx (Tap.selected_bypass hid hi))
      (Tap.tdo_of_not_shift (by simp [hx]) (by simp [hx])) (by cases tms <;> decide)
  case shiftDr =>
    rw [List.drop_one]
    exact exec_tck_of_next_other hh hb ht hk hx rfl (Tap.act_shiftDr hx hi) (Tap.tdo_shiftDr hk hx) (by cases tms <;> decide)
  all_goals
    rw [exec_tck_of_other hh hb ht hk (by rw [hx]; rfl) (by simp [hx]), Tap.enter_other hx (by cases tms <;> decide)]
    rfl

/-- Settles O9, row by row. -/
theorem tckInInstructionColumn : Obligations.TckInInstructionColumn := by
  intro s t tms tdi hh hb ht hk
  refine ⟨fun hx => ?selectIrScan, fun hx => ?captureIr, fun hx => ?shiftIr, fun hx => ?exit1Ir, fun hx => ?pauseIr,
    fun hx => ?exit2Ir, fun hx => ?updateIr⟩
  case selectIrScan =>
    rw [exec_tck_of_other hh hb ht hk (by rw [hx]; rfl) (by simp [hx])]
    cases tms with
    | true => rw [Tap.enter_testLogicReset (by rw [hx]; rfl)]; rfl
    | false => rw [Tap.enter_other hx (by decide)]; rfl
  case captureIr =>
    exact exec_tck_of_next_other hh hb ht hk hx rfl (Tap.act_captureIr hx)
      (Tap.tdo_of_not_shift (by simp [hx]) (by simp [hx])) (by cases tms <;> decide)
  case shiftIr =>
    rw [List.drop_one]
    exact exec_tck_of_next_other hh hb ht hk hx rfl (Tap.act_shiftIr hx) (Tap.tdo_shiftIr hk hx) (by cases tms <;> decide)
  case exit1Ir | exit2Ir =>
    rw [exec_tck_of_other hh hb ht hk (by rw [hx]; rfl) (by simp [hx])]
    cases tms with
    | true => rw [Tap.enter_updateIr (by rw [hx]; rfl)]; rfl
    | false => rw [Tap.enter_other hx (by decide)]; rfl
  case pauseIr | updateIr =>
    rw [exec_tck_of_other hh hb ht hk (by rw [hx]; rfl) (by simp [hx]), Tap.enter_other hx (by cases tms <;> decide)]
    rfl

/-- Only from Exit1-IR and Exit2-IR does a cycle enter Update-IR (R164, R166). -/
theorem tapNext_eq_updateIr {x : TapState} {tms : Bool} (h : tapNext x tms = .updateIr) : x = .exit1Ir ∨ x = .exit2Ir := by
  cases x <;> cases tms <;> simp_all [tapNext]

/-- Settles O10: the two cycles are refused by their actions, which ask for the selected register. -/
theorem reservedInstructionRefused : Obligations.ReservedInstructionRefused := by
  intro s t tms tdi hh hb ht hk hid hby
  have hsel := Tap.selected_undescribed hid hby
  refine ⟨fun hx => ?captureDr, fun hx => ?shiftDr, fun i hi hc hs => ?runs⟩
  case captureDr =>
    exact exec_tck_of_act_none hh hb ht hk (tms := tms) (by rw [hx]; rfl) (Tap.act_eq_none_iff.2 ⟨.inl hx, hsel⟩)
  case shiftDr =>
    exact exec_tck_of_act_none hh hb ht hk (tms := tms) (by rw [hx]; rfl) (Tap.act_eq_none_iff.2 ⟨.inr hx, hsel⟩)
  case runs =>
    obtain ⟨u, ha⟩ := Option.ne_none_iff_exists'.1 fun h => (Tap.act_eq_none_iff (tdi := tdi).1 h).1.elim hc hs
    have hstate : (u.enter tms).state = tapNext t.state tms := by rw [Tap.enter_state, Tap.act_eq_some ha]
    refine ⟨_, u.enter tms, exec_tck_of_act hh hb ht hk hi ha, rfl, hstate, fun hu => ?_⟩
    have hx := tapNext_eq_updateIr (hstate.symm.trans hu)
    have hact : t.act tdi = some t := Tap.act_of_other (by rcases hx with e | e <;> simp [e])
    cases hact.symm.trans ha
    rw [Tap.enter_updateIr (hstate.symm.trans hu)]

/-! ### An unspecified TAP (O16) -/

/-- Settles O16: an unspecified TAP answers in every state, and its cycle only counts ones. -/
theorem unspecifiedTapCycle : Obligations.UnspecifiedTapCycle := by
  intro s t i x tms tdi hh hb ht hk hi
  refine ⟨t.cycleUnknown tms (Config.freeTap s.draws 0), ?cycle, Tap.cycle_par (Tap.cycle_of_unknown (tdi := tdi) hk),
    ?fifth, ?counts, ?zero⟩
  case cycle =>
    rw [← Tap.tdo_of_unknown hk]
    exact exec_tck_of_cycle hh hb ht hi (fun h => absurd h (by simp [hk])) (Tap.cycle_of_unknown hk)
  case fifth =>
    rintro rfl h
    rw [Tap.cycleUnknown_fifth h]
    exact ⟨rfl, rfl, rfl⟩
  case counts =>
    rintro rfl h
    rw [Tap.cycleUnknown_counts h]
    exact ⟨rfl, rfl⟩
  case zero =>
    rintro rfl
    rw [Tap.cycleUnknown_zero]
    exact ⟨rfl, rfl⟩

end Sys2Proof.Machine
end

section
/-! ## Shifting a data register through its TAP (O12, O13) -/

namespace Sys2Proof.Machine

section
variable {pt : Nat × Nat} {s : State} {t u : Tap} {tms tdi : Bool}

/-- At a valid point a cycle of one TAP samples its TDO. -/
theorem clock_of_cycle (hv : s.env.isValid pt = true) (ht : s.target = .chain [t])
    (hc : t.cycle tms tdi (Config.freeTap s.draws 0) = some u) : clock pt tms tdi s =
      .ok (t.tdo.getD (Config.freeBit s.draws 0)) ((s.setDraws (s.draws + 1)).setTarget (.chain [u])) :=
  clock_of_chain tms tdi hv ht (by rw [chainCycle_singleton, hc]; rfl)

/-- Cycles spent in Shift-DR push the TDI bits through the data register: it comes out bit 0 first, then the TDI bits
that have reached bit 0 (R156). -/
theorem clockAll_shiftDr (hv : s.env.isValid pt = true) (ht : s.target = .chain [t]) (hk : t.known = true)
    (hx : t.state = .shiftDr) (hsel : t.selected ≠ .undescribed) (hne : t.drSr ≠ []) (d : Bits) :
    ∃ w, clockAll pt (d.map fun b => (false, b)) s = .ok ((t.drSr ++ d).take d.length) w
      ∧ w.target = .chain [{ t with drSr := (t.drSr ++ d).drop d.length }] := by
  induction d generalizing s t with
  | nil => exact ⟨s, rfl, by simpa using ht⟩
  | cons x d ih =>
    obtain ⟨b, r, hr⟩ := List.exists_cons_of_ne_nil hne
    have hc : t.cycle false x (Config.freeTap s.draws 0) = some { t with drSr := r ++ [x] } := by
      rw [Tap.cycle_of_next_other hk hx (Tap.act_shiftDr hx hsel) (by decide), hr, hx]
      rfl
    obtain ⟨w, e, hw⟩ := ih (s := (s.setDraws (s.draws + 1)).setTarget (.chain [{ t with drSr := r ++ [x] }]))
      hv rfl hk hx hsel (by simp)
    refine ⟨w, ?_, by simpa [hr] using hw⟩
    rw [List.map_cons, clockAll, clock_of_cycle hv ht hc, Res.bind_ok, e, Tap.tdo_shiftDr hk hx, hr]
    simp

/-- A capture and then cycles in Shift-DR: after the bit that nothing drives, the captured register comes out (R155,
R156). -/
theorem clockAll_captureDr {r : Bits} (hv : s.env.isValid pt = true) (ht : s.target = .chain [t]) (hk : t.known = true)
    (hx : t.state = .captureDr) (hsel : t.selected ≠ .undescribed) (x : Bool) (ha : t.act x = some { t with drSr := r })
    (hne : r ≠ []) (d : Bits) :
    ∃ b w, clockAll pt ((false, x) :: d.map fun b => (false, b)) s = .ok (b :: (r ++ d).take d.length) w
      ∧ w.target = .chain [{ t with state := .shiftDr, drSr := (r ++ d).drop d.length }] := by
  have hc : t.cycle false x (Config.freeTap s.draws 0) = some { t with state := .shiftDr, drSr := r } := by
    rw [Tap.cycle_of_next_other hk hx ha (by decide)]
    rfl
  obtain ⟨w, e, hw⟩ := clockAll_shiftDr
    (s := (s.setDraws (s.draws + 1)).setTarget (.chain [{ t with state := .shiftDr, drSr := r }])) hv rfl hk rfl hsel hne d
  exact ⟨_, w, by rw [clockAll, clock_of_cycle hv ht hc, Res.bind_ok, e, Res.bind_ok], hw⟩

end

/-- Settles O12: the captured register is as long as the TDI bits that push it out. -/
theorem idcodeShiftsOutBitZeroFirst : Obligations.IdcodeShiftsOutBitZeroFirst := by
  intro pt s t x d hv ht hk hx hid hi hd
  have hsel := Tap.selected_idcode hid hi
  have hlen : (wordBits t.par.idcodeValue).length = d.length := by rw [wordBits_length, hd]
  obtain ⟨b, w, e, hw⟩ := clockAll_captureDr hv ht hk hx (by simp [hsel]) x (Tap.act_captureDr_idcode hx hsel)
    (List.ne_nil_of_length_pos (by simp)) d
  rw [List.take_left' hlen] at e
  rw [List.drop_left' hlen] at hw
  exact ⟨b, w, e, hw⟩

/-- Settles O13: the captured bypass register is one 0 ahead of the TDI bits. -/
theorem bypassDelaysOneBit : Obligations.BypassDelaysOneBit := by
  intro pt s t x d hv ht hk hx hi hid
  have hsel := Tap.selected_bypass hid hi
  obtain ⟨b, w, e, hw⟩ := clockAll_captureDr hv ht hk hx (by simp [hsel]) x (Tap.act_captureDr_bypass hx hsel)
    (List.cons_ne_nil false []) d
  have hlast : (false :: d).drop d.length = [(false :: d).getLast (by simp)] :=
    List.drop_length_sub_one (List.cons_ne_nil false d)
  rw [← hlast]
  exact ⟨b, w, e, hw⟩

end Sys2Proof.Machine
end

section
/-! ## A chain of TAPs (O17) -/

namespace Sys2Proof.Machine

section
variable {draw j : Nat} {tms tdi : Bool} {ts us : List Tap} {o : Option Bool}

/-- A chain takes a cycle when each of its TAPs does (R173). -/
theorem chainCycle_of_forall (h : ∀ t ∈ ts, ∀ tdi free, ∃ u, t.cycle tms tdi free = some u) (draw j : Nat) (tdi : Bool) :
    ∃ us o, chainCycle draw tms j tdi ts = some (us, o) := by
  induction ts generalizing j tdi with
  | nil => exact ⟨[], none, rfl⟩
  | cons t ts ih =>
    obtain ⟨ht, hts⟩ := List.forall_mem_cons.1 h
    obtain ⟨u, hu⟩ := ht tdi (Config.freeTap draw j)
    cases ts with
    | nil => exact ⟨[u], t.tdo, by rw [chainCycle_singleton, hu]; rfl⟩
    | cons v vs =>
      obtain ⟨us, o, hus⟩ := ih hts (j + 1) (t.tdo.getD (Config.freeBit draw (j + 1)))
      exact ⟨u :: us, o, chainCycle_cons hu hus⟩

/-- What a cycle makes of every TAP, it makes of every TAP of a chain. -/
theorem chainCycle_forall {p q : Tap → Prop} (h : chainCycle draw tms j tdi ts = some (us, o))
    (hpq : ∀ t u tdi free, t.cycle tms tdi free = some u → p t → q u) (hp : ∀ t ∈ ts, p t) : ∀ u ∈ us, q u := by
  have h2 := chainCycle_forall₂ h
  clear h
  induction h2 with
  | nil => simp
  | cons hc _ ih =>
    obtain ⟨ht, hts⟩ := List.forall_mem_cons.1 hp
    obtain ⟨tdi, free, e⟩ := hc
    exact List.forall_mem_cons.2 ⟨hpq _ _ _ _ e ht, ih hts⟩

theorem chainCycle_par (h : chainCycle draw tms j tdi ts = some (us, o)) : us.map Tap.par = ts.map Tap.par :=
  congrArg Prod.fst (Target.Move.chainCycle h).constants

end

/-- In a cycle with `tms` the register `reg` of the TAP shifts: its bit 0 is what the TAP drives on TDO, and TDI enters
at its top (R156, R163). -/
structure Tap.Shifts (reg : Tap → Bits) (tms : Bool) (t : Tap) : Prop where
  tdo : t.tdo = (reg t).head?
  nonempty : reg t ≠ []
  cycle (tdi : Bool) (free : TapRegs) : ∃ u, t.cycle tms tdi free = some u ∧ reg u = shiftStage (reg t) tdi

/-- A bit shifted out of one register into the next is a bit shifted along in the two as one. -/
theorem shiftStage_append {r : Bits} (h : r ≠ []) (b : Bool) (q : Bits) (tdi : Bool) :
    shiftStage r b ++ shiftStage (b :: q) tdi = shiftStage (r ++ b :: q) tdi := by
  obtain ⟨a, r, rfl⟩ := List.exists_cons_of_ne_nil h
  simp [shiftStage]

/-- The registers of a chain, from the last TAP back to the first, shift as one (R173). -/
theorem chainCycle_shifts {reg : Tap → Bits} {tms : Bool} {ts : List Tap} (hne : ts ≠ [])
    (h : ∀ t ∈ ts, t.Shifts reg tms) (draw j : Nat) (tdi : Bool) :
    ∃ us, chainCycle draw tms j tdi ts = some (us, (ts.reverse.flatMap reg).head?)
      ∧ us.reverse.flatMap reg = shiftStage (ts.reverse.flatMap reg) tdi := by
  induction ts generalizing j tdi with
  | nil => exact absurd rfl hne
  | cons t ts ih =>
    obtain ⟨ht, hts⟩ := List.forall_mem_cons.1 h
    obtain ⟨u, hu, hreg⟩ := ht.cycle tdi (Config.freeTap draw j)
    cases ts with
    | nil => exact ⟨[u], by rw [chainCycle_singleton, hu, ht.tdo]; simp, by simpa using hreg⟩
    | cons v vs =>
      obtain ⟨b, q, hb⟩ := List.exists_cons_of_ne_nil ht.nonempty
      obtain ⟨us, hus, hshift⟩ := ih (List.cons_ne_nil v vs) hts (j + 1) (t.tdo.getD (Config.freeBit draw (j + 1)))
      have hrest : (v :: vs).reverse.flatMap reg ≠ [] := by simp [(hts v List.mem_cons_self).nonempty]
      refine ⟨u :: us, ?_, ?_⟩
      · rw [chainCycle_cons hu hus, List.reverse_cons (a := t), List.flatMap_append, List.head?_append_of_ne_nil _ hrest]
      · rw [ht.tdo, hb] at hshift
        rw [List.reverse_cons, List.flatMap_append, hshift, List.reverse_cons (a := t), List.flatMap_append,
          List.flatMap_singleton, List.flatMap_singleton, hreg, hb]
        exact shiftStage_append hrest b q tdi

/-- The chain's cycle in a shift state, with what it leaves of every TAP. -/
theorem chainCycle_shift_state {reg : Tap → Bits} {x : TapState} {tms : Bool} {ts : List Tap} (hne : ts ≠ [])
    (hk : ∀ t ∈ ts, t.known = true ∧ t.state = x) (h : ∀ t ∈ ts, t.Shifts reg tms) (draw : Nat) (tdi : Bool) :
    ∃ us, chainCycle draw tms 0 tdi ts = some (us, (ts.reverse.flatMap reg).head?)
      ∧ us.reverse.flatMap reg = (ts.reverse.flatMap reg).tail ++ [tdi]
      ∧ us.map Tap.par = ts.map Tap.par ∧ ∀ u ∈ us, u.state = tapNext x tms := by
  obtain ⟨us, hus, hshift⟩ := chainCycle_shifts hne h draw 0 tdi
  obtain ⟨t, ts', rfl⟩ := List.exists_cons_of_ne_nil hne
  have hreg : (t :: ts').reverse.flatMap reg ≠ [] := by simp [(h t List.mem_cons_self).nonempty]
  refine ⟨us, hus, hshift.trans (List.tail_append_of_ne_nil hreg), chainCycle_par hus, ?_⟩
  refine chainCycle_forall (p := fun t => t.known = true ∧ t.state = x) hus (fun t u _ _ e ht => ?_) hk
  obtain ⟨hkt, hx⟩ := ht
  obtain ⟨-, hnext⟩ := Tap.cycle_known hkt e
  rw [hnext, hx]

/-- Settles O17: in either shift state a TAP shifts its own register. -/
theorem chainIsOneShiftRegister : Obligations.ChainIsOneShiftRegister := by
  intro draw tms tdi ts hne
  refine ⟨fun h => ?shiftDr, fun h => ?shiftIr⟩
  case shiftDr =>
    refine chainCycle_shift_state (x := .shiftDr) hne (fun t m => (h t m).imp_right And.left) (fun t m => ?_) draw tdi
    obtain ⟨hk, hx, hsel, hreg⟩ := h t m
    exact ⟨Tap.tdo_shiftDr hk hx, hreg, fun tdi free =>
      ⟨_, Tap.cycle_of_next_other hk hx (Tap.act_shiftDr hx hsel) (by cases tms <;> decide), rfl⟩⟩
  case shiftIr =>
    refine chainCycle_shift_state (x := .shiftIr) hne (fun t m => (h t m).imp_right And.left) (fun t m => ?_) draw tdi
    obtain ⟨hk, hx, hreg⟩ := h t m
    exact ⟨Tap.tdo_shiftIr hk hx, hreg, fun tdi free =>
      ⟨_, Tap.cycle_of_next_other hk hx (Tap.act_shiftIr hx) (by cases tms <;> decide), rfl⟩⟩

end Sys2Proof.Machine
end

section
/-! ## Five TMS ones (O14, O15) -/

namespace Sys2Proof

/-- How many TMS ones lead from a state to Test-Logic-Reset (R168). -/
def TapState.onesToReset : TapState → Nat
  | .testLogicReset => 0
  | .selectIrScan => 1
  | .selectDrScan => 2
  | .runTestIdle | .updateDr | .updateIr => 3
  | .exit1Dr | .exit2Dr | .exit1Ir | .exit2Ir => 4
  | .captureDr | .shiftDr | .pauseDr | .captureIr | .shiftIr | .pauseIr => 5

namespace Machine

theorem onesToReset_le_five (x : TapState) : x.onesToReset ≤ 5 := by cases x <;> decide

theorem onesToReset_eq_zero_iff {x : TapState} : x.onesToReset = 0 ↔ x = .testLogicReset := by cases x <;> decide

/-- Every TMS one is a step nearer, and Test-Logic-Reset stays (R152, R168). -/
theorem onesToReset_tapNext (x : TapState) : (tapNext x true).onesToReset = x.onesToReset - 1 := by cases x <;> rfl

theorem iterate_tapNext_eq_reset_iff (x : TapState) (n : Nat) :
    (fun y => tapNext y true)^[n] x = .testLogicReset ↔ x.onesToReset ≤ n := by
  induction n generalizing x with
  | zero => rw [Function.iterate_zero_apply, ← onesToReset_eq_zero_iff, Nat.le_zero]
  | succ n ih => rw [Function.iterate_succ_apply, ih, onesToReset_tapNext, Nat.sub_le_iff_le_add]

/-- Settles O14. -/
theorem fiveOnesReachReset : Obligations.FiveOnesReachReset :=
  ⟨fun x => (iterate_tapNext_eq_reset_iff x 5).2 (onesToReset_le_five x),
    fun x n _ => (iterate_tapNext_eq_reset_iff x n).1, fun x => (iterate_tapNext_eq_reset_iff x _).2 le_rfl⟩

/-! ### One TAP under TMS ones -/

/-- How many TMS ones lead a TAP to Test-Logic-Reset: those of its state, or, while that is unspecified, those still to
count, and at least one (log entry 4). -/
def Tap.onesToReset (t : Tap) : Nat := if t.known then t.state.onesToReset else max 1 (5 - t.ones)

section
variable {t u : Tap} {tdi : Bool} {free : TapRegs}

theorem Tap.onesToReset_le_five (t : Tap) : t.onesToReset ≤ 5 := by
  unfold Tap.onesToReset
  split
  · exact Machine.onesToReset_le_five t.state
  · omega

theorem Tap.onesToReset_eq_zero (h : t.onesToReset = 0) : t.known = true ∧ t.state = .testLogicReset := by
  unfold Tap.onesToReset at h
  split at h
  · exact ⟨‹_›, onesToReset_eq_zero_iff.1 h⟩
  · omega

/-- Every TMS one brings a TAP, known or not, a step nearer to Test-Logic-Reset. -/
theorem Tap.cycle_onesToReset (h : t.cycle true tdi free = some u) : u.onesToReset = t.onesToReset - 1 := by
  cases hk : t.known with
  | true =>
    obtain ⟨hk', hx⟩ := Tap.cycle_known hk h
    simp only [Tap.onesToReset, hk, hk', if_true, hx, onesToReset_tapNext]
  | false =>
    rw [Tap.cycle_of_unknown hk, Option.some_inj] at h
    obtain hones | hones := Nat.lt_or_ge t.ones 4
    · rw [Tap.cycleUnknown_counts hones] at h
      subst h
      simp only [Tap.onesToReset, hk, Tap.lose, Bool.false_eq_true, if_false]
      omega
    · rw [Tap.cycleUnknown_fifth hones] at h
      subst h
      simp only [Tap.onesToReset, hk, Bool.false_eq_true, if_false, if_true, TapState.onesToReset]
      omega

/-- A TAP that a shift can begin with refuses no cycle (R172). -/
theorem Tap.cycle_of_navigable (h : t.navigable) (tms tdi : Bool) (free : TapRegs) :
    ∃ u, t.cycle tms tdi free = some u := by
  cases hk : t.known with
  | false => exact ⟨_, Tap.cycle_of_unknown hk⟩
  | true =>
    obtain ⟨u, ha⟩ := Option.ne_none_iff_exists'.1 fun hn : t.act tdi = none =>
      have ⟨hx, hsel⟩ := Tap.act_eq_none_iff.1 hn
      h hk hx hsel
    exact ⟨_, Tap.cycle_of_known hk ha⟩

/-- A TMS one never leads into Capture-DR or Shift-DR, where a cycle could be refused. -/
theorem Tap.cycle_navigable (h : t.cycle true tdi free = some u) : u.navigable := by
  intro hk hx
  cases hkt : t.known with
  | true =>
    rw [(Tap.cycle_known hkt h).2] at hx
    cases hs : t.state <;> simp [hs, tapNext] at hx
  | false =>
    rw [Tap.cycle_of_unknown hkt, Option.some_inj] at h
    obtain hones | hones := Nat.lt_or_ge t.ones 4
    · rw [Tap.cycleUnknown_counts hones] at h
      subst h
      exact absurd hk Bool.false_ne_true
    · rw [Tap.cycleUnknown_fifth hones] at h
      subst h
      exact absurd hx (by simp)

/-- What a TAP is when it is at most `n` TMS ones from Test-Logic-Reset with its reset instruction. -/
def Tap.ResetWithin : Nat → Tap → Prop
  | 0, t => t.known = true ∧ t.state = .testLogicReset ∧ t.instr = t.par.resetCode
  | n + 1, t => t.navigable ∧ t.onesToReset ≤ n + 1

theorem Tap.cycle_resetWithin {n : Nat} (ht : t.ResetWithin (n + 1)) (h : t.cycle true tdi free = some u) :
    u.ResetWithin n := by
  have hle : u.onesToReset ≤ n := by
    rw [Tap.cycle_onesToReset h]
    exact Nat.sub_le_of_le_add ht.2
  cases n with
  | zero =>
    obtain ⟨hk, hx⟩ := Tap.onesToReset_eq_zero (Nat.le_zero.1 hle)
    exact ⟨hk, hx, Tap.resetOk_iff.1 (Tap.cycle_resetOk h) hk hx⟩
  | succ n => exact ⟨Tap.cycle_navigable h, hle⟩

end

/-! ### A chain under TMS ones -/

/-- As many TMS ones as every TAP of the chain needs bring them all to Test-Logic-Reset. -/
theorem clockAll_ones {pt : Nat × Nat} {s : State} {ts : List Tap} (n : Nat) (hv : s.env.isValid pt = true)
    (ht : s.target = .chain ts) (h : ∀ t ∈ ts, t.ResetWithin n) :
    ∃ bits u ts', clockAll pt (List.replicate n (true, false)) s = .ok bits u ∧ u.target = .chain ts'
      ∧ ts'.map Tap.par = ts.map Tap.par ∧ ∀ t ∈ ts', t.ResetWithin 0 := by
  induction n generalizing s ts with
  | zero => exact ⟨[], s, ts, rfl, ht, rfl, h⟩
  | succ n ih =>
    obtain ⟨us, o, hc⟩ := chainCycle_of_forall (fun t m => Tap.cycle_of_navigable (h t m).1 true) s.draws 0 false
    obtain ⟨bits, u, ts', e, htarget, hpar, hreset⟩ := ih (s := (s.setDraws (s.draws + 1)).setTarget (.chain us)) hv rfl
      (chainCycle_forall hc (fun _ _ _ _ e h => Tap.cycle_resetWithin h e) h)
    refine ⟨o.getD (Config.freeBit s.draws 0) :: bits, u, ts', ?_, htarget, hpar.trans (chainCycle_par hc), hreset⟩
    rw [List.replicate_succ, clockAll, clock_of_chain _ _ hv ht hc, Res.bind_ok, e, Res.bind_ok]

/-- Settles O15: five TMS ones are enough for every TAP. -/
theorem resetWalkFromAnyTarget : Obligations.ResetWalkFromAnyTarget := by
  intro s ts hs hv ht hn
  obtain ⟨bits, u, ts', hu, htarget, hpar, hreset⟩ := clockAll_ones 5 hv ht fun t m => ⟨hn t m, t.onesToReset_le_five⟩
  obtain ⟨w, e, -, hw⟩ := exec_tShift_captures (n := 5) (buf := [0x1F, 0x00]) hs (by decide) (by decide) hu
  exact ⟨w, ts', e, hw.trans htarget, hpar, hreset⟩

end Machine
end Sys2Proof
end

section
/-! ## The register window and a whole run of the sequencer

The start strobe and the reads (R195 to R197), what one run leaves in TDO (R191), and T.SHIFT on MMIO (R203). -/

namespace Sys2Proof.Machine

/-! ### The start strobe (O20) -/

/-- With a LENGTH outside 1..32 the strobe of an idle sequencer is refused (R21, R191). -/
theorem mmioStart_of_lengthOutOfRange {s : State} {u : Nat} (hh : s.handle = some (.mmio u)) (hb : s.mmio.busy = false)
    (hl : s.mmio.length.toNat = 0 ∨ 32 < s.mmio.length.toNat) : mmioStart s = .refused .lengthOutOfRange := by
  have hout : ¬(1 ≤ s.mmio.length.toNat ∧ s.mmio.length.toNat ≤ chunkBits) := by
    rw [show chunkBits = 32 from rfl]
    omega
  rw [mmioStart, needMmio_eq_ok.2 ⟨⟨u, hh⟩, rfl⟩, Res.bind_ok, if_neg (by simp [hb]), if_neg hout]

/-- Settles O20. -/
theorem startStrobeSetsBusy : Obligations.StartStrobeSetsBusy := by
  intro s u hh hb
  refine ⟨fun h1 h32 => ?inRange, fun hl => ?outOfRange⟩
  case inRange => exact congrArg (Res.out · giveWritten) (mmioStart_eq_ok.2 ⟨⟨u, hh⟩, hb, ⟨h1, h32⟩, rfl⟩)
  case outOfRange => exact congrArg (Res.out · giveWritten) (mmioStart_of_lengthOutOfRange hh hb hl)

/-! ### Reads (O21) -/

theorem showsBusy_eq_true_iff {mask value : Word} : showsBusy mask value = true ↔ value &&& mask ≠ 0 :=
  decide_eq_true_iff

/-- A read of a register other than STATUS and TDO is no operation of the table (R96, U37). -/
theorem decodeAccess_readBack {c : Config} (h : c.wellFormed = true) {off : Nat} (ho : off ∈ c.offsets)
    (hstatus : off ≠ c.regStatus) (htdo : off ≠ c.regTdo) (bs : List Byte) :
    decodeAccess c off 1 bs = .bad .readBack := by
  obtain ⟨haligned, hin, -⟩ := Config.offset_inWindow h ho
  simp [decodeAccess, haligned, Nat.not_lt.2 hin, hstatus, htdo, ho]

/-- The call of an access that is a read-back is taken as one, up to the bytes after it (U37). -/
theorem decodeReadBack_accessBytes {c : Config} (h : c.wellFormed = true) {off : Nat} (ho : off ∈ c.offsets)
    (hstatus : off ≠ c.regStatus) (htdo : off ≠ c.regTdo) (tail : List Byte) :
    decodeReadBack c (tagMmio :: accessBytes off 1 [] ++ tail) = some tail := by
  have taken : takeBytes 5 (accessBytes off 1 [] ++ tail) = some (accessBytes off 1 [], tail) :=
    takeBytes_append_of_length tail (by simp [accessBytes])
  have access : decodeAccessCall c (accessBytes off 1 [] ++ tail) = .bad .readBack :=
    (decodeAccessCall_accessBytes h ho 1 [] tail).trans (decodeAccess_readBack h ho hstatus htdo tail)
  rw [List.cons_append]
  simp only [decodeReadBack, if_pos, taken, access]

/-- The host issues such a read, and gets some word (U37). -/
theorem hostTurn_of_readBack {s : State} {u : Nat} {rest : List Byte} (hh : s.handle = some (.mmio u))
    (h : decodeReadBack s.cfg s.calls = some rest) :
    hostTurn s =
      .next (((s.setCalls rest).setDraws (s.draws + 1)).setRet (.word (Config.freeWord s.draws 0))) := by
  have fetched : fetchCall s = .readBack rest := by
    unfold fetchCall
    cases hc : s.calls with
    | nil => rw [hc] at h; cases h
    | cons b bs =>
      rw [hc] at h
      simp only [h]
  have read : mmioReadBack (s.setCalls rest) =
      .ok (Config.freeWord s.draws 0) ((s.setCalls rest).setDraws (s.draws + 1)) :=
    mmioReadBack_eq_ok.2 ⟨⟨u, hh⟩, rfl, rfl⟩
  rw [hostTurn, fetched]
  exact congrArg (Res.out · giveWord) read

/-- Settles O21: the two reads of the table answer by their rules; any other is a read-back, which the devices' turn
before it does not change. -/
theorem registerReadsHaveNoSideEffect : Obligations.RegisterReadsHaveNoSideEffect := by
  intro s u hh
  refine ⟨fun hmask => ?status, fun hb => ?tdo, fun s1 off tail hw ho hstatus htdo hready hd hcalls => ?readBack⟩
  case status =>
    refine ⟨_, congrArg (Res.out · giveWord) (mmioStatus_eq_ok.2 ⟨⟨u, hh⟩, rfl, rfl⟩), ?_⟩
    rw [← showsBusy_eq_true_iff, showsBusy_statusValue hmask]
  case tdo => exact congrArg (Res.out · giveWord) (mmioTdo_eq_ok.2 ⟨⟨u, hh⟩, hb, rfl, rfl⟩)
  case readBack =>
    have hk := deviceTurn_keeps s
    rw [hd] at hk
    obtain ⟨hcfg, hhandle, -, -, -, -, hcalls1⟩ := hk
    have hread : decodeReadBack s1.cfg s1.calls = some tail := by
      rw [hcfg, hcalls1, hcalls]
      exact decodeReadBack_accessBytes hw ho hstatus htdo tail
    exact ⟨_, (step_of_ready hready hd).trans (hostTurn_of_readBack (hhandle.trans hh) hread)⟩

/-! ### A run of the sequencer (O22) -/

/-- Only the host's reads of STATUS use up its free values. -/
theorem engineTick_statusReads {s t : State} (h : engineTick s = .ok () t) : t.statusReads = s.statusReads := by
  unfold engineTick at h
  split at h
  · obtain ⟨b, u, hu, h⟩ := Res.bind_eq_ok.1 h
    cases h
    rw [clock_eq_ok hu]
    rfl
  · cases h
    rfl

theorem engineTicks_statusReads {k : Nat} {s t : State} (h : engineTicks k s = .ok () t) :
    t.statusReads = s.statusReads := by
  induction k generalizing s with
  | zero => cases h; rfl
  | succ k ih =>
    unfold engineTicks at h
    split at h
    · obtain ⟨_, s1, h1, h⟩ := Res.bind_eq_ok.1 h
      exact (ih h).trans (engineTick_statusReads h1)
    · cases h
      rfl

/-- A just started sequencer runs to the end of its chunk: its cycles are clocked, their samples pushed into TDO, busy is
clear, and nothing else changes (R191). -/
theorem engineFinish_of_started {s u : State} {bits : Bits} (hb : s.mmio.busy = true) (hc : s.mmio.count = 0)
    (hu : clockAll s.mmioPoint s.mmio.chunkCycles s = .ok bits u) :
    engineFinish s = .ok () (u.setMmio
      { s.mmio with tdo := pushWords s.mmio.tdo bits, busy := false, count := s.mmio.length.toNat }) := by
  obtain ⟨t, e, ht, hpace⟩ := (Running.start hb hc).finish ⟨bits, u, hu⟩
  have hreads := engineTicks_statusReads e
  obtain ⟨bits', u', pace, reads, hu', et⟩ := ht.state
  rw [List.take_of_length_le (by rw [Mmio.chunkCycles_length]), hu] at hu'
  cases hu'
  rw [et] at hpace hreads
  obtain rfl : pace = s.env.pace := hpace
  obtain rfl : reads = s.statusReads := hreads
  rw [e, et, (clockAll_eq_ok hu).1]
  rfl

/-- The samples stand at the top of TDO, in the order they came (R24, R191). -/
theorem pushWords_getLsbD_top (w : Word) {bits : Bits} (hl : bits.length ≤ 32) {k : Nat} (hk : k < bits.length) :
    (pushWords w bits).getLsbD (32 - bits.length + k) = bits.getD k false := by
  rw [pushWords, foldl_push_getLsbD pushWord_getLsbD _ _ (by omega) hl, if_pos (by omega)]
  congr 1
  omega

/-- Below them stands what TDO held, moved down (R191). -/
theorem pushWords_getLsbD_below (w : Word) {bits : Bits} (hl : bits.length ≤ 32) {k : Nat} (hk : k < 32 - bits.length) :
    (pushWords w bits).getLsbD k = w.getLsbD (k + bits.length) := by
  rw [pushWords, foldl_push_getLsbD pushWord_getLsbD _ _ (by omega) hl, if_neg (by omega)]

/-- Settles O22. -/
theorem engineRunLeavesCaptureAtTheTop : Obligations.EngineRunLeavesCaptureAtTheTop := by
  intro s u bits hb hc _ hmax hu
  have hlen : bits.length = s.mmio.length.toNat := (clockAll_eq_ok hu).2.trans s.mmio.chunkCycles_length
  refine ⟨pushWords s.mmio.tdo bits, engineFinish_of_started hb hc hu, ?_⟩
  rw [← hlen] at hmax ⊢
  exact ⟨fun k => pushWords_getLsbD_top _ hmax, fun k => pushWords_getLsbD_below _ hmax⟩

/-! ### T.SHIFT on MMIO (O28) -/

/-- Settles O28: the chunk loop captures the cycles of the vector, and the invariant at its end names the registers. -/
theorem mmioShiftIsTheSpecifiedShift : Obligations.MmioShiftIsTheSpecifiedShift := by
  intro s u n buf bits hw ⟨⟨i, hh⟩, hb, halive, hlimit⟩ hn hbuf hu
  obtain ⟨t, e, ht, htarget, hdraws⟩ := mmioShift_captures hn hb
    ⟨⟨i, hh⟩, statusBusy_ne_zero_of_wellFormed hw, halive, hlimit, bits, u, hu⟩ hu
  obtain ⟨hctrl, hlength⟩ := ht.last rfl
  have hk := mmioShift_keeps n (buf.take (bytesFor n)) (buf.drop (bytesFor n)) s
  rw [e] at hk
  obtain ⟨hcfg, hhandle, hidentity, htable, -, hdiags, hcalls⟩ := hk
  have hrest : t.rest = s.rest := Prod.ext hcfg (Prod.ext hhandle (Prod.ext htable hcalls))
  exact ⟨giveCapture (packBits bits) (t.setHost HostSeq.idle),
    congrArg (Res.out · giveCapture) ((shift_of_mmio hh hn hbuf).trans e), rfl, htarget, hdraws, ht.idle, ht.clkdiv,
    ht.delay, hctrl, hlength, ht.synced rfl, rfl, ht.usb, ht.usbHost, hidentity, hdiags, hrest, ht.env⟩

end Sys2Proof.Machine
end

section
/-! ## The commands of the adapter

What each command leaves, the cycles being clocked (R222 to R225): an adapter with its response bytes, nothing else. -/

namespace Sys2Proof.Machine

variable {s t u : State} {a : UsbAddress} {bits : Bits}

/-- On the USB backend a command, or a flush, runs at once and gives no result of its own. -/
theorem usbCommand_next {part : State → Res Unit} (hh : s.handle = some (.usb a)) (e : part s = .ok () t) :
    ((needUsb s).bind fun _ s1 => part s1).out giveSent = .next (t.setRet .none) := by
  rw [needUsb_eq_ok.2 ⟨⟨a, hh⟩, rfl⟩, Res.bind_ok, e]
  rfl

/-- Settles O26. -/
theorem setDivisorCommandClocksNothing : Obligations.SetDivisorCommandClocksNothing := by
  intro s a div hh
  exact usbCommand_next hh rfl

/-! ### Byte-shifts (O23) -/

/-- The cycles of data bytes, bit 0 of each first, the level held (R222). -/
theorem cyclesOf_bytes (level : Bool) (d : List Byte) :
    cyclesOf level (d.map .byte) = d.flatMap fun x => (List.range 8).map fun b => (level, x.getLsbD b) := by
  induction d with
  | nil => rfl
  | cons x d ih =>
    rw [List.map_cons, cyclesOf, List.flatMap_cons, ← ih, Piece.cycles, byteBits_eq_map, List.map_map]
    rfl

/-- The first eight bits packed are the first byte (R12). -/
theorem packBits_of_byte (h : 8 ≤ bits.length) : packBits bits = byteOfBits (bits.take 8) :: packBits (bits.drop 8) := by
  have hb : bytesFor bits.length = bytesFor (bits.drop 8).length + 1 := by
    rw [List.length_drop, bytesFor, bytesFor]
    omega
  rw [packBits, packBits, hb, List.range_succ_eq_map, List.map_cons, List.map_map]
  congr 1
  refine List.map_congr_left fun j _ => ?_
  rw [Function.comp_apply, List.drop_drop, Nat.mul_succ, Nat.add_comm]

/-- The adapter after data bytes: their samples packed join the responses, and the last of them stands in `rb` (R222). -/
theorem Usb.ran_bytes (x : Usb) (d : List Byte) (h : bits.length = 8 * d.length) :
    x.ran (d.map .byte) bits =
      { x with rb := (packBits bits).getLastD x.rb, rspq := x.rspq ++ packBits bits } := by
  induction d generalizing x bits with
  | nil =>
    obtain rfl : bits = [] := List.length_eq_zero_iff.1 h
    simp [Usb.ran, packBits, bytesFor]
  | cons y d ih =>
    rw [List.length_cons] at h
    have later := ih (x.served (bits.take 8) (.byte y)) (bits := bits.drop 8) (by rw [List.length_drop]; omega)
    rw [packBits_of_byte (by omega), List.getLastD_cons]
    refine Eq.trans later ?_
    simp [Usb.served, Piece.level, Piece.response]

/-- Settles O23: the pieces of the command are its data bytes. -/
theorem byteShiftCommand : Obligations.ByteShiftCommand := by
  intro s u a e d bits hh hu
  rw [← cyclesOf_bytes] at hu
  have hlen : bits.length = 8 * d.length := by
    rw [(clockAll_eq_ok hu).2, cyclesOf_bytes]
    simp [Nat.mul_comm]
  refine usbCommand_next (part := adapterByteShift e d) hh ?_
  rw [adapterByteShift_eq, runPieces_eq, hu, Res.bind_ok, Usb.ran_bytes _ _ hlen]

/-! ### Bit-shifts and TMS-shifts (O24, O25) -/

/-- The samples stand at the top of the response byte, in the order they came (R223, R224). -/
theorem pushBits_getLsbD_top (rb : Byte) (hl : bits.length ≤ 8) (k : Nat) :
    (pushBits rb bits).getLsbD (8 - bits.length + k) = bits.getD k false := by
  rw [← pushBits_align_getLsbD rb hl k, BitVec.getLsbD_ushiftRight]

/-- Below them stands what the receive register held, moved down (R223, R224). -/
theorem pushBits_getLsbD_below (rb : Byte) (hl : bits.length ≤ 8) {k : Nat} (hk : k < 8 - bits.length) :
    (pushBits rb bits).getLsbD k = rb.getLsbD (k + bits.length) := by
  rw [pushBits, foldl_push_getLsbD pushByte_getLsbD _ _ (by omega) hl, if_neg (by omega)]

/-- The first bits of a byte, bit 0 first. -/
theorem byteBits_take (x : Byte) {r : Nat} (hr : r ≤ 8) : (byteBits x).take r = (List.range r).map x.getLsbD := by
  rw [byteBits_eq_map, ← List.map_take, List.take_range, Nat.min_eq_left hr]

/-- A bit-shift whose cycles can be clocked (R223). -/
theorem adapterBitShift_of_clocked {e : Bool} {r : Nat} {d : Byte} (hr : r ≤ 8)
    (hu : clockAll (s.usbPoint e) ((List.range r).map fun b => (s.usb.tms, d.getLsbD b)) s = .ok bits u) :
    adapterBitShift e r d s = .ok () (u.setUsb { s.usb with
      rb := pushBits s.usb.rb bits, rspq := s.usb.rspq ++ [pushBits s.usb.rb bits] }) := by
  have hc : (Piece.bits r d).cycles s.usb.tms = (List.range r).map fun b => (s.usb.tms, d.getLsbD b) := by
    rw [Piece.cycles, byteBits_take d hr, List.map_map]
    rfl
  rw [adapterBitShift_eq, runPiece, hc, hu]
  rfl

/-- A TMS-shift whose cycles can be clocked; it does not look at the host's side (R224). -/
theorem adapterTmsShift_of_clocked {e : Bool} {r : Nat} {b : Byte} (hr : r ≤ 8) (x : UsbHost)
    (hu : clockAll (s.usbPoint e) ((List.range r).map fun j => (b.getLsbD j, b.getLsbD 7)) s = .ok bits u) :
    adapterTmsShift e r b (s.setUsbHost x) = .ok () ((u.setUsb { s.usb with
      tms := b.getLsbD (r - 1)
      rb := pushBits s.usb.rb bits, rspq := s.usb.rspq ++ [pushBits s.usb.rb bits] }).setUsbHost x) := by
  have hc : ((byteBits b).take r).map (fun m => (m, b.getLsbD 7)) =
      (List.range r).map fun j => (b.getLsbD j, b.getLsbD 7) := by
    rw [byteBits_take b hr, List.map_map]
    rfl
  have wire : SameWire (s.usbPoint e) s (s.usbPoint e) (s.setUsbHost x) := ⟨rfl, rfl, rfl⟩
  rw [adapterTmsShift, hc]
  refine (congrArg (Res.bind · _) (wire.clockAll hu)).trans ?_
  rw [Res.bind_ok, (clockAll_eq_ok hu).1]
  rfl

/-- Settles O24. -/
theorem bitShiftCommand : Obligations.BitShiftCommand := by
  intro s u a e r d bits hh _ hr hu
  obtain rfl : bits.length = r := by simpa using (clockAll_eq_ok hu).2
  exact ⟨pushBits s.usb.rb bits, usbCommand_next hh (adapterBitShift_of_clocked hr hu),
    fun k _ => pushBits_getLsbD_top _ hr k, fun k => pushBits_getLsbD_below _ hr⟩

/-- Settles O25. -/
theorem tmsShiftCommand : Obligations.TmsShiftCommand := by
  intro s u a e r b bits hh _ hr7 hu
  obtain rfl : bits.length = r := by simpa using (clockAll_eq_ok hu).2
  have hr : bits.length ≤ 8 := Nat.le_succ_of_le hr7
  exact ⟨pushBits s.usb.rb bits, usbCommand_next hh (adapterTmsShift_of_clocked hr _ hu),
    fun k _ => pushBits_getLsbD_top _ hr k, fun k => pushBits_getLsbD_below _ hr⟩

end Sys2Proof.Machine
end

section
/-! ## A flush, and the whole shift over USB

The adapter's own work touches neither the host nor the environment, so a flush of whatever stands in the batch is the
write, the read and the replay (R240 to R244); T.SHIFT is the scan that ends in one (R245). -/

namespace Sys2Proof.Machine

variable {s t u : State}

/-! ### What the adapter's work can change -/

/-- The states differ in the adapter, the target and the index of the free values alone. -/
def AdapterMoved (s t : State) : Prop := ∃ x v k, t = ((s.setUsb x).setTarget v).setDraws k

theorem AdapterMoved.setUsb (s : State) (x : Usb) : AdapterMoved s (s.setUsb x) := ⟨x, s.target, s.draws, rfl⟩

theorem AdapterMoved.refl (s : State) : AdapterMoved s s := .setUsb s s.usb

theorem AdapterMoved.trans (h : AdapterMoved s t) (k : AdapterMoved t u) : AdapterMoved s u := by
  obtain ⟨_, _, _, rfl⟩ := h
  obtain ⟨x, v, k, rfl⟩ := k
  exact ⟨x, v, k, rfl⟩

/-- Wherever a part of an operation leaves a state, only the adapter's work has been done. -/
def Res.adapterMoves {α : Type} (x : Res α) (s : State) : Prop :=
  x.Post (fun _ => AdapterMoved s) (AdapterMoved s)

theorem Res.adapterMoves_bind {α β : Type} {x : Res α} {f : α → State → Res β} (h : x.adapterMoves s)
    (k : ∀ a t, (f a t).adapterMoves t) : (x.bind f).adapterMoves s :=
  Res.Leaves.bind h fun a t m => (k a t).mono (fun _ _ => m.trans) fun _ => m.trans

theorem Res.adapterMoves.of_ok {α : Type} {x : Res α} {a : α} (h : x.adapterMoves s) (e : x = .ok a t) :
    AdapterMoved s t := by
  subst e
  exact h

/-- Cycles, and then an update of the adapter. -/
theorem clockAll_bind_setUsb_adapterMoves (pt : Nat × Nat) (v : List (Bool × Bool)) (s : State)
    (x : Bits → State → Usb) :
    ((clockAll pt v s).bind fun bits u => .ok () (u.setUsb (x bits u))).adapterMoves s := by
  refine ((clockAll_leaves (T := False) False.elim).mono (fun _ _ h => h) (fun _ => False.elim) fun _ => trivial).bind
    fun bits u hu => ?_
  rw [(clockAll_eq_ok hu).1]
  exact ⟨_, _, _, rfl⟩

theorem adapterByteShift_adapterMoves (e : Bool) (d : List Byte) (s : State) :
    (adapterByteShift e d s).adapterMoves s := by
  rw [adapterByteShift_eq, runPieces_eq]
  exact clockAll_bind_setUsb_adapterMoves _ _ s fun bits _ => s.usb.ran _ bits

theorem adapterExec_adapterMoves (i : Instr) (s : State) : (adapterExec i s).adapterMoves s := by
  unfold adapterExec
  split
  · exact adapterByteShift_adapterMoves _ _ s
  · exact clockAll_bind_setUsb_adapterMoves _ _ s _
  · exact clockAll_bind_setUsb_adapterMoves _ _ s _
  · exact AdapterMoved.setUsb s _
  · trivial

theorem adapterRun_adapterMoves (fuel : Nat) (s : State) : (adapterRun fuel s).adapterMoves s := by
  induction fuel generalizing s with
  | zero => exact AdapterMoved.refl s
  | succ fuel ih =>
    unfold adapterRun
    split
    · exact AdapterMoved.refl s
    · trivial
    · rename_i i rest _
      have popped := AdapterMoved.setUsb s { s.usb with cmdq := rest }
      exact Res.adapterMoves_bind
        ((adapterExec_adapterMoves i _).mono (fun _ _ => popped.trans) fun _ => popped.trans) fun _ t => ih t

/-- A write that goes on takes one entry off the environment's list, and the adapter does its work. -/
theorem adapterMoved_of_usbWrite {bytes : List Byte} (h : usbWrite bytes s = .ok () t) :
    AdapterMoved (s.setEnv { s.env with writes := s.env.writes.tail }) t := by
  obtain ⟨_, s1, haccept, hrun⟩ := Res.bind_eq_ok.1 h
  obtain ⟨-, rfl⟩ := usbAccept_eq_ok.1 haccept
  exact (AdapterMoved.setUsb _ _).trans ((adapterRun_adapterMoves _ _).of_ok hrun)

/-! ### The flush (O27) -/

/-- The replay unpacks the response bytes by the descriptors in order, and looks at no byte past the last descriptor
(R241, R242). -/
theorem replay_take_tdoBuf (ds : List Descriptor) (xs : List Byte) (h : HostSeq) :
    (replay ds (xs.take ds.length) h).tdoBuf = (ds.zip xs).foldl (fun buf p => unpack p.1 p.2 buf) h.tdoBuf := by
  induction ds generalizing xs h with
  | nil => rfl
  | cons d ds ih =>
    cases xs with
    | nil => rfl
    | cons x xs => exact ih xs _

theorem usbFlush_of_empty (h : s.usbHost.desc = []) :
    usbFlush s = .ok () (s.setUsbHost { s.usbHost with run := none }) := by
  unfold usbFlush
  exact if_pos h

/-- Settles O27: the adapter's work leaves the batch in place, so the read asks for one byte per descriptor. -/
theorem flushReplaysDescriptors : Obligations.FlushReplaysDescriptors := by
  intro s a hh
  refine ⟨fun hd => usbCommand_next hh (usbFlush_of_empty hd), fun s1 hd htransfers halive hw hlen => ?_⟩
  have flushed := usbFlush_of_desc hd
  rw [hw, Res.bind_ok] at flushed
  obtain ⟨x, v, k, e⟩ := adapterMoved_of_usbWrite hw
  have herror : .error ∉ s1.env.delivery := by rw [e]; exact htransfers.1
  have halive1 : s1.env.usbAlive = true := by rw [e]; exact halive
  obtain ⟨d, -, hr⟩ := usbRead_of_alive (got := []) rfl herror halive1 hlen
  subst e
  exact ⟨_, usbCommand_next hh (flushed.trans (congrArg (Res.bind · _) hr)), rfl, rfl,
    replay_take_tdoBuf s.usbHost.desc x.rspq _, rfl, rfl, rfl, rfl, rfl, rfl, rfl⟩

/-! ### T.SHIFT on USB (O29) -/

/-- A part that neither stops nor leaves the host stuck goes on. -/
theorem Res.Leaves.exists_ok {α : Type} {F : Prop} {P : α → State → Prop} {Q : State → Prop} {x : Res α}
    (h : x.Leaves F P Q) (hF : ¬F) (hQ : ∀ t, ¬Q t) : ∃ a t, x = .ok a t ∧ P a t := by
  cases x with
  | ok a t => exact ⟨a, t, rfl, h⟩
  | stuck t => exact absurd h (hQ t)
  | fault f => exact absurd h hF
  | refused r => exact absurd h hF

/-- Settles O29: the scan, with everything vouched for, captures the cycles of the vector and ends between calls. -/
theorem usbShiftIsTheSpecifiedShift : Obligations.UsbShiftIsTheSpecifiedShift := by
  intro s u n buf bits hw ⟨⟨a, hh⟩, hq, hrsp, hl, halive, htransfers⟩ hn hbuf hu
  obtain ⟨cap, t, e, hsettled, hidle, hdone⟩ := (usbShift_leaves (T := True) hw hq (levelsAgree_iff.1 hl)
    (fun _ => ⟨halive, bits, u, hu⟩) fun _ => ⟨hrsp, htransfers⟩).exists_ok (not_not_intro trivial)
    fun _ h => h.1 trivial
  obtain ⟨bits', u', hu', rfl, htarget, hdraws, hrspq, hdiv, hedge, hmmio, hshadow, henv⟩ := hdone trivial
  cases hu.symm.trans hu'
  have hk := usbShift_keeps n (buf.take (bytesFor n)) (buf.drop (bytesFor n)) s
  rw [e] at hk
  obtain ⟨hcfg, hhandle, hidentity, htable, -, hdiags, hcalls⟩ := hk
  have hrest : t.rest = s.rest := Prod.ext hcfg (Prod.ext hhandle (Prod.ext htable hcalls))
  exact ⟨giveCapture (packBits bits) t, congrArg (Res.out · giveCapture) ((shift_of_usb hh hn hbuf).trans e), rfl,
    htarget, hdraws, hsettled.queue, hrspq, hdiv, levelsAgree_iff.2 hsettled.levels, hsettled.out, hsettled.desc, hedge,
    hidle, hmmio, hshadow, hidentity, hdiags, hrest, henv⟩

end Sys2Proof.Machine
end

section
/-! ## Shifts in a row

A shift that completes leaves a state in which the next one completes too, at the same operating point; the setters
move it to another point (R132, R135 to R137). -/

namespace Sys2Proof.Machine

/-- The state `s` goes on as `t`: its engine completes shifts, now at the operating point `pt`, and what a shift or
setter keeps is kept. -/
structure Resumes (s : State) (pt : Nat × Nat) (t : State) : Prop where
  ready : t.shiftReady
  point : t.shiftPoint = pt
  valid (p : Nat × Nat) : t.env.isValid p = s.env.isValid p
  kept : Kept s t

section
variable {s t u : State} {pt pt' : Nat × Nat}

theorem Resumes.refl (h : s.shiftReady) : Resumes s s.shiftPoint s := ⟨h, rfl, fun _ => rfl, .refl s⟩

theorem Resumes.trans (h : Resumes s pt t) (k : Resumes t pt' u) : Resumes s pt' u :=
  ⟨k.ready, k.point, fun p => (k.valid p).trans (h.valid p), h.kept.trans k.kept⟩

theorem Resumes.isValid_point (h : Resumes s pt t) (hv : s.env.isValid pt = true) :
    t.env.isValid t.shiftPoint = true := by
  rw [h.valid, h.point, hv]

theorem Resumes.cfg (h : Resumes s pt t) : t.cfg = s.cfg := by
  obtain ⟨hcfg, -⟩ := h.kept
  exact hcfg

theorem Resumes.handle (h : Resumes s pt t) : t.handle = s.handle := by
  obtain ⟨-, hhandle, -⟩ := h.kept
  exact hhandle

theorem Resumes.identity (h : Resumes s pt t) : t.identity = s.identity := by
  obtain ⟨-, -, hidentity, -⟩ := h.kept
  exact hidentity

theorem Resumes.diags (h : Resumes s pt t) : t.diags = s.diags := by
  obtain ⟨-, -, -, -, -, hdiags, -⟩ := h.kept
  exact hdiags

theorem Resumes.rest (h : Resumes s pt t) : t.rest = s.rest := by
  obtain ⟨hcfg, hhandle, -, htable, -, -, hcalls⟩ := h.kept
  exact Prod.ext hcfg (Prod.ext hhandle (Prod.ext htable hcalls))

theorem State.shiftPoint_of_mmio {i : Nat} (h : s.handle = some (.mmio i)) : s.shiftPoint = s.mmioPoint := by
  simp [State.shiftPoint, h]

theorem State.shiftPoint_of_usb {a : UsbAddress} (h : s.handle = some (.usb a)) :
    s.shiftPoint = s.usbPoint s.usbHost.edge := by simp [State.shiftPoint, h]

/-- The operating point read from the registers of the MMIO engine (R48). -/
theorem Resumes.mmioPoint {i : Nat} (h : Resumes s pt t) (hh : s.handle = some (.mmio i)) :
    t.mmio.clkdiv.toNat = pt.1 ∧ t.mmio.delay.toNat = pt.2 := by
  rw [← h.point, State.shiftPoint_of_mmio (h.handle.trans hh)]
  exact ⟨rfl, rfl⟩

/-- The operating point read from the adapter and the driver's edge (R48). -/
theorem Resumes.usbPoint {a : UsbAddress} (h : Resumes s pt t) (hh : s.handle = some (.usb a)) :
    t.usb.div.toNat = pt.1 ∧ t.usbHost.edge.toNat = pt.2 := by
  rw [← h.point, State.shiftPoint_of_usb (h.handle.trans hh)]
  exact ⟨rfl, rfl⟩

end

/-! ### After a shift -/

section
variable {s u : State} {n : Nat} {tms tdi buf : List Byte} {bits : Bits} {v : List (Bool × Bool)}

/-- `UsbShift` with transfers that do not fail leaves transfers that do not fail (R317 (e)). -/
theorem usbShift_transfersOk (hw : s.cfg.wellFormed = true) (hr : s.usbReady)
    (hu : clockAll (s.usbPoint s.usbHost.edge) (vectorOf n tms tdi) s = .ok bits u) :
    (usbShift n tms tdi s).Post (fun _ t => t.transfersOk) fun _ => True := by
  obtain ⟨-, hq, hrsp, hl, halive, htransfers⟩ := hr
  have vouched : Vouched True s (vectorOf n tms tdi) := fun _ => ⟨halive, bits, u, hu⟩
  have start : Scanning True s (vectorOf n tms tdi) 0 (min n (8 * 0)) 0 []
      ((s.setUsbHost { s.usbHost with out := [], desc := [], run := none }).setHost
        { HostSeq.idle with tdoBuf := List.replicate (bytesFor n) 0 }) :=
    ⟨hw, hq, UsbHost.holds_nil _ _ rfl rfl rfl, levelsAgree_iff.1 hl, by simp [cyclesOf], Nat.zero_le _, by simp,
      trivial, rfl, fun _ => ⟨⟨[], s, rfl, rfl, rfl, by rw [vectorOf_length]; exact captured_nil n⟩, hrsp, htransfers,
        rfl, rfl, rfl, rfl, rfl⟩⟩
  refine ((usbLoop_scanning _ start vouched (by rw [bytesFor]; omega)).mono (fun _ _ h => h) (fun _ _ => trivial)
    fun _ => trivial).bind ?_
  rintro _ t ⟨k', m', ps', ht⟩
  refine ((usbFlush_scanning ht vouched).mono (fun _ _ h => h) (fun _ _ => trivial) fun _ => trivial).bind ?_
  rintro _ w ⟨hw, -⟩
  exact (hw.flushed trivial).transfers

/-- A shift of a working engine leaves a working engine at the same point (R132). -/
theorem shift_resumes (hs : s.shiftReady) (hn : 0 < n) (hbuf : buf.length = 2 * bytesFor n)
    (hu : clockAll s.shiftPoint (vectorOf n (buf.take (bytesFor n)) (buf.drop (bytesFor n))) s = .ok bits u) :
    ∃ t, shift n buf s = .ok (packBits bits) t ∧ t.target = u.target ∧ Resumes s s.shiftPoint t := by
  have hk := shift_keeps n buf s
  obtain ⟨hw, hm | hr⟩ := hs
  · obtain ⟨⟨i, hh⟩, hb, halive, hlimit⟩ := hm
    rw [State.shiftPoint_of_mmio hh] at hu ⊢
    rw [shift_of_mmio hh hn hbuf] at hk ⊢
    obtain ⟨t, e, ht, htarget, -⟩ := mmioShift_captures hn hb
      ⟨⟨i, hh⟩, statusBusy_ne_zero_of_wellFormed hw, halive, hlimit, bits, u, hu⟩ hu
    rw [e] at hk
    have hht : t.handle = some (.mmio i) := ht.handle.trans hh
    have halive' : t.env.engineAlive = true := by rw [ht.env]; exact halive
    have hlimit' : t.cfg.pollLimit = 0 ∨ t.env.pace.length < t.cfg.pollLimit := by
      rw [ht.cfg]
      exact hlimit.imp_right ht.pace.trans_lt
    have hpoint : t.mmioPoint = s.mmioPoint := by rw [State.mmioPoint, State.mmioPoint, ht.clkdiv, ht.delay]
    exact ⟨_, e, htarget, ⟨ht.cfg ▸ hw, .inl ⟨⟨i, hht⟩, ht.idle, halive', hlimit'⟩⟩,
      (State.shiftPoint_of_mmio hht).trans hpoint, fun p => by rw [State.setHost_env, ht.env]; rfl, hk⟩
  · obtain ⟨⟨a, hh⟩, hq, hrsp, hl, halive, hok⟩ := hr
    rw [State.shiftPoint_of_usb hh] at hu ⊢
    rw [shift_of_usb hh hn hbuf] at hk ⊢
    obtain ⟨cap, t, e, hsettled, -, hdone⟩ := (usbShift_leaves (T := True) hw hq (levelsAgree_iff.1 hl)
      (fun _ => ⟨halive, bits, u, hu⟩) fun _ => ⟨hrsp, hok⟩).exists_ok (not_not_intro trivial) fun _ h => h.1 trivial
    have htransfers := usbShift_transfersOk hw ⟨⟨a, hh⟩, hq, hrsp, hl, halive, hok⟩ hu
    obtain ⟨bits', u', hu', rfl, htarget, -, hrspq, hdiv, hedge, -, -, henv⟩ := hdone trivial
    cases hu.symm.trans hu'
    rw [e] at hk htransfers
    have ⟨_, hhandle, _⟩ := hk
    have hht : t.handle = some (.usb a) := hhandle.trans hh
    have hpoint : t.usbPoint t.usbHost.edge = s.usbPoint s.usbHost.edge := by
      rw [State.usbPoint, State.usbPoint, hdiv, hedge]
    exact ⟨t, e, htarget, ⟨hsettled.wf, .inr ⟨⟨a, hht⟩, hsettled.queue, hrspq, levelsAgree_iff.2 hsettled.levels,
      by rw [henv]; exact halive, htransfers⟩⟩, (State.shiftPoint_of_usb hht).trans hpoint,
      fun p => by rw [henv]; rfl, hk⟩

/-- A vector packed into its buffer is read back from it (R12, R92). -/
theorem vectorOf_packBits (v : List (Bool × Bool)) :
    vectorOf v.length (packBits (v.map (·.1))) (packBits (v.map (·.2))) = v := by
  refine List.ext_getElem (by simp) fun i h1 h2 => ?_
  simp [vectorOf, (captured_packBits _).2, h2]

/-- The same of a vector given as pairs. -/
theorem shiftPairs_resumes (hs : s.shiftReady) (hv : v ≠ []) (hu : clockAll s.shiftPoint v s = .ok bits u) :
    ∃ t, shiftPairs v s = .ok (packBits bits) t ∧ t.target = u.target ∧ Resumes s s.shiftPoint t := by
  have h1 : (packBits (v.map (·.1))).length = bytesFor v.length := packBits_length (List.length_map _)
  have h2 : (packBits (v.map (·.2))).length = bytesFor v.length := packBits_length (List.length_map _)
  refine shift_resumes hs (List.length_pos_iff.2 hv) (by rw [List.length_append, h1, h2]; omega) ?_
  rwa [List.take_left' h1, List.drop_left' h1, vectorOf_packBits]

end

/-! ### After a setter -/

section
variable {s : State} {h : Handle}

/-- The largest values of the setters fit their registers (R96, R101). -/
theorem setterBounds_of_wellFormed {c : Config} (h : c.wellFormed = true) :
    c.divMax < 2 ^ 32 ∧ c.delayMax < 2 ^ 32 ∧ c.usbDivMax < 2 ^ 16 := by
  simp only [Config.wellFormed, Bool.and_eq_true, decide_eq_true_eq] at h
  obtain ⟨⟨⟨-, hdiv⟩, hdelay⟩, husb⟩ := h
  exact ⟨hdiv, hdelay, husb⟩

/-- The slowest divisor can be set, and is then the divisor in effect (R266, R135, R136). -/
theorem setClockDivisor_slowest (hs : s.shiftReady) (hh : s.handle = some h) :
    ∃ t, setClockDivisor (slowestDivisor s.cfg h) s = .ok () t ∧ t.target = s.target
      ∧ Resumes s (slowestDivisor s.cfg h, s.shiftPoint.2) t := by
  obtain ⟨hw, ⟨⟨i, hm⟩, hb, hready⟩ | ⟨⟨a, hu⟩, hq, hrsp, hl, halive, herror, hwrites⟩⟩ := hs
  · cases hh.symm.trans hm
    obtain ⟨hmax, -, -⟩ := setterBounds_of_wellFormed hw
    refine ⟨_, (setClockDivisor_of_mmio hm (Int.natCast_nonneg _) le_rfl).trans (mmioWrite_of_idle hm hb _), rfl,
      ⟨hw, .inl ⟨⟨i, hm⟩, hb, hready⟩⟩, ?_, fun _ => rfl, .refl s⟩
    simpa [State.shiftPoint, hm, State.mmioPoint, slowestDivisor] using hmax
  · cases hh.symm.trans hu
    obtain ⟨-, -, hmax⟩ := setterBounds_of_wellFormed hw
    refine ⟨_, setClockDivisor_of_usb hu hw hq fun e => hwrites (List.mem_of_head? e), rfl,
      ⟨hw, .inr ⟨⟨a, hu⟩, hq, hrsp, hl, halive, herror, fun m => hwrites (List.mem_of_mem_tail m)⟩⟩, ?_,
      fun _ => rfl, .refl s⟩
    simpa [State.shiftPoint, hu, State.usbPoint, slowestDivisor, clampNat] using hmax

/-- A timing value of the sweep can be set, and is then the one in effect (R266, R136, R137). -/
theorem setTimingParam_of_le (hs : s.shiftReady) (hh : s.handle = some h) {tp : Nat} (htp : tp ≤ tpMax s.cfg h) :
    ∃ t, setTimingParam tp s = .ok () t ∧ t.target = s.target ∧ Resumes s (s.shiftPoint.1, tp) t := by
  obtain ⟨hw, ⟨⟨i, hm⟩, hb, hready⟩ | ⟨⟨a, hu⟩, hready⟩⟩ := hs
  · cases hh.symm.trans hm
    obtain ⟨-, hmax, -⟩ := setterBounds_of_wellFormed hw
    have htp : tp ≤ s.cfg.delayMax := htp
    refine ⟨_, (setTimingParam_of_mmio hm (Int.natCast_nonneg _) (Int.ofNat_le.2 htp)).trans
      (mmioWrite_of_idle hm hb _), rfl, ⟨hw, .inl ⟨⟨i, hm⟩, hb, hready⟩⟩, ?_, fun _ => rfl, .refl s⟩
    simpa [State.shiftPoint, hm, State.mmioPoint] using htp.trans_lt hmax
  · cases hh.symm.trans hu
    have htp : tp ≤ 1 := htp
    refine ⟨_, setTimingParam_of_usb hu, rfl, ⟨hw, .inr ⟨⟨a, hu⟩, hready⟩⟩, ?_, fun _ => rfl, .refl s⟩
    have hedge : (decide (tp ≠ 0)).toNat = tp := by interval_cases tp <;> rfl
    simpa [State.shiftPoint, hu, State.usbPoint] using hedge

end

end Sys2Proof.Machine
end

section
/-! ## Vectors on a target of one TAP

What the cycles of the probes' vectors do to one TAP: reset, navigation, and shifts with the exit convention (R168,
R177, R263, R265, R269). -/

namespace Sys2Proof.Machine

/-! ### Vectors in parts -/

/-- At a valid point the cycles of `v` take a target of the one TAP `t` to one of a TAP `u`, such that `Q` holds of the
samples and of `u`. -/
def Tap.Clocks (t : Tap) (v : List (Bool × Bool)) (Q : Bits → Tap → Prop) : Prop :=
  ∀ (pt : Nat × Nat) (s : State), s.env.isValid pt = true → s.target = .chain [t] →
    ∃ bits w u, clockAll pt v s = .ok bits w ∧ w.target = .chain [u] ∧ Q bits u

section
variable {t u : Tap} {m d : Bool} {v w : List (Bool × Bool)} {P Q : Bits → Tap → Prop} {x : TapState}
  {r code tdi : Bits}

theorem Tap.Clocks.mono (h : t.Clocks v P) (hPQ : ∀ b u, P b u → Q b u) : t.Clocks v Q := by
  intro pt s hv ht
  obtain ⟨bits, w, u, e, hw, hP⟩ := h pt s hv ht
  exact ⟨bits, w, u, e, hw, hPQ bits u hP⟩

/-- Vectors in a row, with as many samples of the first as it has cycles. -/
theorem Tap.Clocks.append (h : t.Clocks v P)
    (k : ∀ a u, a.length = v.length → P a u → u.Clocks w fun b x => Q (a ++ b) x) : t.Clocks (v ++ w) Q := by
  intro pt s hv ht
  obtain ⟨a, s1, u, e, hs1, hP⟩ := h pt s hv ht
  obtain ⟨hframe, hlen⟩ := clockAll_eq_ok e
  have hv1 : s1.env.isValid pt = true := by rw [hframe]; exact hv
  obtain ⟨b, s2, x, e2, hs2, hQ⟩ := k a u hlen hP pt s1 hv1 hs1
  exact ⟨a ++ b, s2, x, clockAll_append_of_ok e e2, hs2, hQ⟩

/-- A vector whose samples nobody looks at takes the TAP `t` to `u`. -/
def Tap.Goes (t : Tap) (v : List (Bool × Bool)) (u : Tap) : Prop := t.Clocks v fun _ x => x = u

theorem Tap.Goes.nil (t : Tap) : t.Goes [] t := fun _ s _ ht => ⟨[], s, t, rfl, ht, rfl⟩

theorem Tap.Goes.append {t1 : Tap} (h : t.Goes v t1) (k : t1.Goes w u) : t.Goes (v ++ w) u :=
  Tap.Clocks.append h fun _ _ _ e => e ▸ k

theorem Tap.Goes.cycle (h : ∀ free, t.cycle m d free = some u) : t.Goes [(m, d)] u := by
  intro pt s hv ht
  exact ⟨_, _, u, by rw [clockAll_singleton, clock_of_cycle hv ht (h _), Res.bind_ok], rfl, rfl⟩

theorem Tap.Goes.cons {t1 : Tap} (h : ∀ free, t.cycle m d free = some t1) (k : t1.Goes v u) : t.Goes ((m, d) :: v) u :=
  (Tap.Goes.cycle h).append k

/-! ### Navigation -/

/-- The TMS bits lead from a state through states that neither capture nor shift, into states whose entry does
nothing. -/
def quietWalk : TapState → Bits → Bool
  | _, [] => true
  | x, m :: ms => decide (x ∉ [.captureDr, .shiftDr, .captureIr, .shiftIr])
      && decide (tapNext x m ∉ [.updateIr, .testLogicReset]) && quietWalk (tapNext x m) ms

/-- Such a walk changes the state alone (R177). -/
theorem Tap.goes_quietWalk {ms : Bits} (hk : t.known = true) (hx : t.state = x) (hq : quietWalk x ms = true) :
    t.Goes (navigate ms) { t with state := ms.foldl tapNext x } := by
  induction ms generalizing t x with
  | nil =>
    subst hx
    exact .nil t
  | cons m ms ih =>
    simp only [quietWalk, Bool.and_eq_true, decide_eq_true_eq] at hq
    obtain ⟨⟨hact, hn⟩, hq⟩ := hq
    exact .cons (fun _ => Tap.cycle_of_next_other hk hx (Tap.act_of_other (hx ▸ hact)) hn)
      (ih (t := { t with state := tapNext x m }) hk rfl hq)

/-- What a capture puts into the data register under IDCODE and under BYPASS (R170, R171). -/
def Tap.captured (t : Tap) : Bits := if t.selected = .idcode then wordBits t.par.idcodeValue else [false]

theorem Tap.act_captureDr (hx : t.state = .captureDr) (hsel : t.selected ≠ .undescribed) :
    t.act d = some { t with drSr := t.captured } := by
  cases h : t.selected with
  | idcode => rw [Tap.act_captureDr_idcode hx h, Tap.captured, if_pos h]
  | bypass => rw [Tap.act_captureDr_bypass hx h, Tap.captured, if_neg (by simp [h])]
  | undescribed => exact absurd h hsel

/-- A quiet walk to Capture-DR, and the capture (R155). -/
theorem Tap.goes_captureDr {ms : Bits} (hk : t.known = true) (hx : t.state = x) (hq : quietWalk x ms = true)
    (hend : ms.foldl tapNext x = .captureDr) (hsel : t.selected ≠ .undescribed) :
    t.Goes (navigate ms ++ [(false, false)]) { t with state := .shiftDr, drSr := t.captured } := by
  refine (Tap.goes_quietWalk hk hx hq).append (.cycle fun _ => ?_)
  rw [hend]
  exact Tap.cycle_of_next_other (t := { t with state := .captureDr }) (x := .captureDr) hk rfl
    (Tap.act_captureDr rfl hsel) (by decide)

/-- A quiet walk to Capture-IR, and the capture (R162). -/
theorem Tap.goes_captureIr {ms : Bits} (hk : t.known = true) (hx : t.state = x) (hq : quietWalk x ms = true)
    (hend : ms.foldl tapNext x = .captureIr) :
    t.Goes (navigate ms ++ [(false, false)])
      { t with state := .shiftIr, irSr := bitsOfNat t.par.irLength t.par.irCapture } := by
  refine (Tap.goes_quietWalk hk hx hq).append (.cycle fun _ => ?_)
  rw [hend]
  exact Tap.cycle_of_next_other (t := { t with state := .captureIr }) (x := .captureIr) hk rfl
    (Tap.act_captureIr rfl) (by decide)

/-- From Exit1-IR, where Update-IR installs the instruction, to Shift-DR (R167, R263). -/
theorem Tap.goes_exit1Ir_shiftDr (hk : t.known = true) (hx : t.state = .exit1Ir)
    (hsel : { t with instr := t.irSr }.selected ≠ .undescribed) :
    t.Goes toShiftDr { t with state := .shiftDr, instr := t.irSr, drSr := { t with instr := t.irSr }.captured } := by
  have hupdate (free : TapRegs) : t.cycle true false free = some { t with state := .updateIr, instr := t.irSr } := by
    rw [Tap.cycle_of_known hk (Tap.act_of_other (by simp [hx])), Tap.enter_updateIr (by rw [hx]; rfl)]
  exact .cons hupdate (Tap.goes_captureDr (t := { t with state := .updateIr, instr := t.irSr }) (x := .updateIr)
    (ms := [true, false]) hk rfl (by decide) rfl hsel)

/-! ### Shifts with the exit convention -/

theorem exitShift_cons (a b : Bool) (l : Bits) : exitShift (a :: b :: l) = (false, a) :: exitShift (b :: l) := rfl

/-- TAPs that differ in the register `r` they shift: it comes out bit 0 first, then the bits shifted in, and the last
cycle leaves the shift state (R156, R163, R263). -/
theorem Tap.clocks_exitShift {shifting exited : Bits → Tap} (htdo : ∀ r, (shifting r).tdo = r.head?)
    (hstay : ∀ r d free, (shifting r).cycle false d free = some (shifting (shiftStage r d)))
    (hexit : ∀ r d free, (shifting r).cycle true d free = some (exited (shiftStage r d))) (hr : r ≠ [])
    (htdi : tdi ≠ []) : (shifting r).Clocks (exitShift tdi) fun bits u =>
      bits = (r ++ tdi).take tdi.length ∧ u = exited ((r ++ tdi).drop tdi.length) := by
  induction tdi generalizing r with
  | nil => exact absurd rfl htdi
  | cons a l ih =>
    obtain ⟨b, r, rfl⟩ := List.exists_cons_of_ne_nil hr
    intro pt s hv ht
    cases l with
    | nil =>
      refine ⟨[b], (s.setDraws (s.draws + 1)).setTarget (.chain [exited (r ++ [a])]), _, ?_, rfl, by simp, by simp⟩
      exact (clockAll_singleton pt true a s).trans (by rw [clock_of_cycle hv ht (hexit _ _ _), htdo]; rfl)
    | cons c l =>
      obtain ⟨bits, w, u, e, hw, rfl, rfl⟩ := ih (r := r ++ [a]) (by simp) (List.cons_ne_nil c l) pt
        ((s.setDraws (s.draws + 1)).setTarget (.chain [shifting (r ++ [a])])) hv rfl
      refine ⟨_, w, _, ?_, hw, rfl, ?_⟩
      · rw [exitShift_cons, clockAll, clock_of_cycle hv ht (hstay _ _ _), Res.bind_ok, htdo]
        exact (congrArg (Res.bind · _) e).trans (by simp)
      · simp

/-- A data scan from Shift-DR to Exit1-DR. -/
theorem Tap.clocks_exitShift_dr (hk : t.known = true) (hx : t.state = .shiftDr) (hsel : t.selected ≠ .undescribed)
    (hr : t.drSr ≠ []) (htdi : tdi ≠ []) : t.Clocks (exitShift tdi) fun bits u =>
      bits = (t.drSr ++ tdi).take tdi.length ∧
        u = { t with state := .exit1Dr, drSr := (t.drSr ++ tdi).drop tdi.length } := by
  have cycle (m : Bool) (r : Bits) (d : Bool) (free : TapRegs) :
      { t with state := .shiftDr, drSr := r }.cycle m d free =
        some { t with state := tapNext .shiftDr m, drSr := shiftStage r d } :=
    Tap.cycle_of_next_other (t := { t with state := .shiftDr, drSr := r }) (x := .shiftDr) hk rfl
      (Tap.act_shiftDr rfl hsel) (by cases m <;> decide)
  have h := Tap.clocks_exitShift (shifting := fun r => { t with state := .shiftDr, drSr := r })
    (exited := fun r => { t with state := .exit1Dr, drSr := r })
    (fun r => Tap.tdo_shiftDr (t := { t with state := .shiftDr, drSr := r }) hk rfl) (cycle false) (cycle true) hr htdi
  rwa [← hx] at h

/-- A code of the register's width, shifted in from Shift-IR, stands in the register in Exit1-IR (R263). -/
theorem Tap.goes_exitShift_ir (hk : t.known = true) (hx : t.state = .shiftIr) (hlen : t.irSr.length = code.length)
    (hcode : code ≠ []) : t.Goes (exitShift code) { t with state := .exit1Ir, irSr := code } := by
  have cycle (m : Bool) (r : Bits) (d : Bool) (free : TapRegs) :
      { t with state := .shiftIr, irSr := r }.cycle m d free =
        some { t with state := tapNext .shiftIr m, irSr := shiftStage r d } :=
    Tap.cycle_of_next_other (t := { t with state := .shiftIr, irSr := r }) (x := .shiftIr) hk rfl (Tap.act_shiftIr rfl)
      (by cases m <;> decide)
  have hne : t.irSr ≠ [] := List.ne_nil_of_length_pos (hlen ▸ List.length_pos_iff.2 hcode)
  have h := Tap.clocks_exitShift (shifting := fun r => { t with state := .shiftIr, irSr := r })
    (exited := fun r => { t with state := .exit1Ir, irSr := r })
    (fun r => Tap.tdo_shiftIr (t := { t with state := .shiftIr, irSr := r }) hk rfl) (cycle false) (cycle true) hne
    hcode
  rw [← hx, List.drop_left' hlen] at h
  exact h.mono fun _ _ e => e.2

/-! ### From any state -/

/-- Five TMS ones take the TAP to Test-Logic-Reset, wherever it is (R168). -/
theorem Tap.clocks_reset (hn : t.navigable) :
    t.Clocks (navigate [true, true, true, true, true]) fun _ u => u.ResetWithin 0 ∧ u.par = t.par := by
  intro pt s hv ht
  obtain ⟨bits, w, us, e, hw, hpar, hreset⟩ := clockAll_ones 5 hv ht
    (List.forall_mem_singleton.2 ⟨hn, t.onesToReset_le_five⟩)
  obtain ⟨u, rfl⟩ := List.length_eq_one_iff.1 ((List.length_map Tap.par).symm.trans (congrArg List.length hpar))
  exact ⟨bits, w, u, e, hw, hreset u List.mem_cons_self, List.singleton_inj.1 hpar⟩

/-- The TAP `u` is what the TAP `t` has become in a known state `x` with the instruction `code`. -/
structure Tap.Reaches (t : Tap) (x : TapState) (code : Bits) (u : Tap) : Prop where
  known : u.known = true
  state : u.state = x
  instr : u.instr = code
  par : u.par = t.par

/-- The TAP `t` has become `u`, in Shift-DR under `code`, with `r` in the data register that the code selects. -/
structure Tap.Presents (t : Tap) (code r : Bits) (u : Tap) : Prop extends t.Reaches .shiftDr code u where
  described : u.selected ≠ .undescribed
  register : u.drSr = r

/-- The reset instruction is IDCODE or, without an identification register, BYPASS (R152, R176). -/
theorem Tap.selected_resetCode (hi : t.instr = t.par.resetCode) :
    t.selected = if t.par.hasIdcode = true then .idcode else .bypass := by
  unfold TapParams.resetCode at hi
  split at hi
  case isTrue h => rw [if_pos h, Tap.selected_idcode h hi]
  case isFalse h => rw [if_neg h, Tap.selected_bypass (fun h' => absurd h' h) hi]

/-- The scan vector up to Shift-DR captures what the reset instruction selects (R264, R265). -/
theorem Tap.clocks_scanWalk (hn : t.navigable) :
    t.Clocks (navigate [true, true, true, true, true, false, true, false, false]) fun _ u =>
      t.Presents t.par.resetCode (if t.par.hasIdcode = true then wordBits t.par.idcodeValue else [false]) u := by
  refine (Tap.clocks_reset hn).append (w := navigate [false, true, false, false]) fun _ u _ hu => ?_
  obtain ⟨⟨hk, hx, hi⟩, hpar⟩ := hu
  have hsel := Tap.selected_resetCode hi
  have hdescribed : u.selected ≠ .undescribed := by rw [hsel]; split <;> decide
  refine (Tap.goes_captureDr (ms := [false, true, false]) hk hx (by decide) rfl hdescribed).mono fun _ y e => ?_
  subst e
  refine ⟨⟨hk, rfl, hi.trans (hpar ▸ rfl), hpar⟩, hdescribed, ?_⟩
  rw [← hpar, Tap.captured, hsel]
  cases u.par.hasIdcode <;> rfl

/-- The instruction walk installs a described instruction and ends in Shift-DR with its register captured (R263,
R269). -/
theorem Tap.clocks_instrWalk (hn : t.navigable) (hlen : code.length = t.par.irLength) (hne : code ≠ [])
    (hreg : ∀ u : Tap, u.par = t.par → u.instr = code → u.selected ≠ .undescribed ∧ u.captured = r) :
    t.Clocks (toShiftIr ++ exitShift code ++ toShiftDr) fun _ u => t.Presents code r u := by
  rw [List.append_assoc]
  refine (Tap.clocks_reset hn).append
    (w := navigate [false, true, true, false, false] ++ (exitShift code ++ toShiftDr)) fun _ u _ hu => ?_
  obtain ⟨⟨hk, hx, -⟩, hpar⟩ := hu
  have hlen : (bitsOfNat u.par.irLength u.par.irCapture).length = code.length := by rw [bitsOfNat_length, hpar, hlen]
  obtain ⟨hsel, hcaptured⟩ := hreg { u with state := .exit1Ir, instr := code, irSr := code } hpar rfl
  have toIr := Tap.goes_captureIr (ms := [false, true, true, false]) hk hx (by decide) rfl
  have shiftCode := Tap.goes_exitShift_ir
    (t := { u with state := .shiftIr, irSr := bitsOfNat u.par.irLength u.par.irCapture }) hk rfl hlen hne
  have toDr := Tap.goes_exit1Ir_shiftDr (t := { u with state := .exit1Ir, irSr := code }) hk rfl hsel
  refine (toIr.append (shiftCode.append toDr)).mono fun _ y e => ?_
  subst e
  exact ⟨⟨hk, rfl, rfl, hpar⟩, hsel, hcaptured⟩

/-- A data scan of what a TAP presents. -/
theorem Tap.Presents.clocks_exitShift (h : t.Presents code r u) (hr : r ≠ []) (htdi : tdi ≠ []) :
    u.Clocks (exitShift tdi) fun bits y => bits = (r ++ tdi).take tdi.length ∧ t.Reaches .exit1Dr code y := by
  obtain ⟨⟨hk, hx, hi, hpar⟩, hsel, rfl⟩ := h
  refine (Tap.clocks_exitShift_dr hk hx hsel hr htdi).mono fun bits y e => ?_
  obtain ⟨rfl, rfl⟩ := e
  exact ⟨rfl, hk, rfl, hi, hpar⟩

/-- A walk to Shift-DR and 32 data bits: from the walk's length on, the samples are the word in the register. -/
theorem Tap.Clocks.scanWord {word : Word} (h : t.Clocks v fun _ u => t.Presents code r u) (hr : r ≠ [])
    (hword : (r ++ List.replicate 32 false).take 32 = wordBits word) :
    t.Clocks (v ++ exitShift (List.replicate 32 false)) fun bits u =>
      (∃ a, a.length = v.length ∧ bits = a ++ wordBits word) ∧ t.Reaches .exit1Dr code u := by
  refine h.append fun a u ha hu => (hu.clocks_exitShift hr (by simp)).mono fun bits y e => ?_
  obtain ⟨rfl, hy⟩ := e
  exact ⟨⟨a, ha, by rw [List.length_replicate, hword]⟩, hy⟩

end

end Sys2Proof.Machine
end

section
/-! ## The probes (O37 to O43)

Each probe is one or two shifts and a window of the capture (R262, R264, R268). -/

namespace Sys2Proof.Machine

/-! ### Words in a capture -/

theorem wordBits_eq_map (w : Word) : wordBits w = (List.range 32).map w.getLsbD := by
  simp [wordBits, bitsOfNat_eq_map, BitVec.testBit_toNat]

theorem wordBits_getD (w : Word) (i : Nat) : (wordBits w).getD i false = w.getLsbD i := by
  by_cases h : i < 32
  · simp [wordBits_eq_map, List.getD_eq_getElem?_getD, h]
  · rw [List.getD_eq_default _ _ (by simpa using Nat.le_of_not_lt h), BitVec.getLsbD_of_ge _ _ (Nat.le_of_not_lt h)]

@[simp] theorem wordOfBits_wordBits (w : Word) : wordOfBits (wordBits w) = w := by
  refine BitVec.eq_of_getLsbD_eq fun i hi => ?_
  rw [wordOfBits, BitVec.getLsbD_ofNat, natOfBits_testBit, wordBits_getD, decide_eq_true hi, Bool.true_and]

theorem wordBits_zero : wordBits 0 = List.replicate 32 false := by decide

/-- The window of a capture at a word is the word. -/
theorem windowAt_packBits (a c : Bits) (w : Word) : windowAt (packBits (a ++ wordBits w ++ c)) a.length = w := by
  obtain ⟨-, hat⟩ := captured_packBits (a ++ wordBits w ++ c)
  have hbits : (List.range 32).map (fun k => bitAt (packBits (a ++ wordBits w ++ c)) (a.length + k)) = wordBits w := by
    refine (List.map_congr_left fun k hk => ?_).trans (wordBits_eq_map w).symm
    have hk : k < (wordBits w).length := by simpa using hk
    rw [hat, List.append_assoc, List.getD_append_right _ _ _ _ (Nat.le_add_right _ _), Nat.add_sub_cancel_left,
      List.getD_append _ _ _ _ hk, wordBits_getD]
  rw [windowAt, hbits, wordOfBits_wordBits]

theorem flatMap_wordBits_length (ws : List Word) : (ws.flatMap wordBits).length = 32 * ws.length := by
  simp [List.length_flatMap, Nat.mul_comm]

/-- The windows of a capture at words in a row are the words (R268). -/
theorem windows_packBits (a c : Bits) (ws : List Word) :
    (List.range ws.length).map (fun j => windowAt (packBits (a ++ ws.flatMap wordBits ++ c)) (32 * j + a.length)) =
      ws := by
  refine List.ext_getElem (by simp) fun j h1 h2 => ?_
  have hws : (ws.take j).flatMap wordBits ++ (wordBits ws[j] ++ (ws.drop (j + 1)).flatMap wordBits) =
      ws.flatMap wordBits := by
    rw [← List.flatMap_cons, ← List.drop_eq_getElem_cons, ← List.flatMap_append, List.take_append_drop]
  have hsplit : a ++ ws.flatMap wordBits ++ c =
      (a ++ (ws.take j).flatMap wordBits) ++ wordBits ws[j] ++ ((ws.drop (j + 1)).flatMap wordBits ++ c) := by
    simp only [← hws, List.append_assoc]
  have hlen : 32 * j + a.length = (a ++ (ws.take j).flatMap wordBits).length := by
    rw [List.length_append, flatMap_wordBits_length, List.length_take_of_le (Nat.le_of_lt h2), Nat.add_comm]
  rw [List.getElem_map, List.getElem_range, hsplit, hlen, windowAt_packBits]

/-! ### One probe -/

/-- What a scan of a device reads: its identifier, or 0 when it has none (R264, R176). -/
def TapParams.scanned (p : TapParams) : Word := if p.hasIdcode = true then p.idcodeValue else 0

/-- A probe at `s`, with the one TAP `t`, answers `a`; the state goes on, its TAP in Exit1-DR under `code`. -/
def Probed {α : Type} (s : State) (t : Tap) (code : Bits) (x : Res α) (a : α) : Prop :=
  ∃ w u, x = .ok a w ∧ w.target = .chain [u] ∧ t.Reaches .exit1Dr code u ∧ Resumes s s.shiftPoint w

/-- What a probe that records its answer gives the caller. -/
theorem Probed.out {α : Type} {s : State} {t : Tap} {code : Bits} {x : Res α} {a : α} (h : Probed s t code x a)
    (g : α → Ret) : ∃ u t', (x.out fun b y => y.setRet (g b)) = .next u ∧ u.ret = g a
      ∧ u.target = .chain [t'] ∧ t'.known = true ∧ t'.state = .exit1Dr ∧ t'.instr = code ∧ t'.par = t.par
      ∧ u.identity = s.identity ∧ u.diags = s.diags ∧ u.rest = s.rest := by
  obtain ⟨w, t', rfl, ht, ⟨hk, hx, hi, hpar⟩, hw⟩ := h
  exact ⟨w.setRet (g a), t', rfl, rfl, ht, hk, hx, hi, hpar, hw.identity, hw.diags, hw.rest⟩

section
variable {s : State} {t : Tap} (hs : s.shiftReady) (hv : s.env.isValid s.shiftPoint = true)
  (ht : s.target = .chain [t])
include hs hv ht

/-- A shift of a vector on a target of one TAP. -/
theorem shiftPairs_of_clocks {v : List (Bool × Bool)} {Q : Bits → Tap → Prop} (hne : v ≠ []) (h : t.Clocks v Q) :
    ∃ bits w u, shiftPairs v s = .ok (packBits bits) w ∧ w.target = .chain [u] ∧ Q bits u ∧
      Resumes s s.shiftPoint w := by
  obtain ⟨bits, s1, u, e, hs1, hQ⟩ := h _ s hv ht
  obtain ⟨w, ew, hw, hr⟩ := shiftPairs_resumes hs hne e
  exact ⟨bits, w, u, ew, hw.trans hs1, hQ, hr⟩

/-- A shift of a walk to Shift-DR and 32 data bits, and the window at the walk's end. -/
theorem shiftPairs_scanWord {v : List (Bool × Bool)} {code r : Bits} {word : Word}
    (h : t.Clocks v fun _ u => t.Presents code r u) (hr : r ≠ [])
    (hword : (r ++ List.replicate 32 false).take 32 = wordBits word) :
    Probed s t code ((shiftPairs (v ++ exitShift (List.replicate 32 false)) s).bind fun cap s1 =>
      .ok (windowAt cap v.length) s1) word := by
  obtain ⟨bits, w, u, e, hw, ⟨⟨a, ha, rfl⟩, hu⟩, hres⟩ :=
    shiftPairs_of_clocks hs hv ht (List.append_ne_nil_of_right_ne_nil _ (by decide)) (h.scanWord hr hword)
  refine ⟨w, u, ?_, hw, hu, hres⟩
  rw [e, Res.bind_ok, ← ha, ← List.append_nil (a ++ wordBits word), windowAt_packBits]

/-- P.SCAN_CHAIN reads the identifier, or 0 from the bypass register (R264, R176). -/
theorem scanChain_probed (hn : t.navigable) :
    Probed s t t.par.resetCode (scanChain s) t.par.scanned := by
  unfold TapParams.scanned
  refine shiftPairs_scanWord hs hv ht (Tap.clocks_scanWalk hn) ?_ ?_
  · cases t.par.hasIdcode
    · exact List.cons_ne_nil _ _
    · exact List.ne_nil_of_length_pos (by simp)
  · cases t.par.hasIdcode
    · exact wordBits_zero.symm
    · exact List.take_left' (wordBits_length _)

end

/-- Settles O37. -/
theorem scanChainReadsTheIdentifier : Obligations.ScanChainReadsTheIdentifier :=
  fun _ _ hs hv ht hn => (scanChain_probed hs hv ht hn).out .word

/-! ### Probes of a known device -/

theorem exitShift_length {tdi : Bits} (h : tdi ≠ []) : (exitShift tdi).length = tdi.length := by
  have := List.length_pos_iff.2 h
  simp only [exitShift, List.length_zip, List.length_append, List.length_replicate, List.length_singleton]
  omega

theorem State.handle_of_shiftReady {s : State} (hs : s.shiftReady) : ∃ h, s.handle = some h := by
  obtain ⟨-, ⟨⟨i, hh⟩, -⟩ | ⟨⟨a, hh⟩, -⟩⟩ := hs
  · exact ⟨_, hh⟩
  · exact ⟨_, hh⟩

section
variable {s : State} {t : Tap} {d : DeviceIdentity} (hs : s.shiftReady) (hv : s.env.isValid s.shiftPoint = true)
  (ht : s.target = .chain [t]) (hn : t.navigable) (hd : s.identity = some d) (hir : d.irLength = t.par.irLength)
  (hpos : 1 ≤ t.par.irLength)
include hs hv ht hn hd hir hpos

/-- P.PROBE_IDCODE installs IDCODE and reads the identifier behind the 14 + irLength cycles of the walk (R262, R263). -/
theorem probeIdcode_probed (hcmd : d.idCommand = t.par.idCommand) (hid : t.par.hasIdcode = true) :
    Probed s t t.par.idcodeCode (probeIdcode s) t.par.idcodeValue := by
  obtain ⟨h, hh⟩ := State.handle_of_shiftReady hs
  have hlen : t.par.idcodeCode.length = t.par.irLength := t.par.idcodeCode_length
  have hne : t.par.idcodeCode ≠ [] := List.ne_nil_of_length_pos (hlen ▸ hpos)
  have hreg (u : Tap) (hpar : u.par = t.par) (hi : u.instr = t.par.idcodeCode) :
      u.selected ≠ .undescribed ∧ u.captured = wordBits t.par.idcodeValue := by
    have hsel : u.selected = .idcode := Tap.selected_idcode (hpar ▸ hid) (hpar ▸ hi)
    exact ⟨by simp [hsel], by rw [Tap.captured, if_pos hsel, hpar]⟩
  have hoff : (toShiftIr ++ exitShift t.par.idcodeCode ++ toShiftDr).length = 14 + t.par.irLength := by
    rw [List.length_append, List.length_append, exitShift_length hne, hlen]
    simp only [toShiftIr, toShiftDr, navigate, List.length_map, List.length_cons, List.length_nil]
    omega
  have probed := shiftPairs_scanWord hs hv ht (Tap.clocks_instrWalk hn hlen hne hreg)
    (List.ne_nil_of_length_pos (by simp)) (List.take_left' (wordBits_length _))
  rw [hoff] at probed
  rw [probeIdcode, needHandle_eq_ok.2 ⟨hh, rfl⟩, Res.bind_ok, needIdentity_eq_ok.2 ⟨hd, rfl⟩, Res.bind_ok, hir, hcmd]
  exact probed

/-- P.PROBE_BYPASS_VEC installs BYPASS in one shift; in the next one the words come back a bit later (R268, R269). -/
theorem probeBypassVec_probed (hclash : t.par.hasIdcode = true → t.par.idcodeCode ≠ t.par.bypassCode)
    {values : List Word} (hvalues : values ≠ []) : Probed s t t.par.bypassCode (probeBypassVec values s) values := by
  obtain ⟨h, hh⟩ := State.handle_of_shiftReady hs
  have hne : t.par.bypassCode ≠ [] := List.ne_nil_of_length_pos (t.par.bypassCode_length ▸ hpos)
  have hreg (u : Tap) (hpar : u.par = t.par) (hi : u.instr = t.par.bypassCode) :
      u.selected ≠ .undescribed ∧ u.captured = [false] := by
    have hsel : u.selected = .bypass :=
      Tap.selected_bypass (by rw [hpar, hi]; exact fun h => (hclash h).symm) (hpar ▸ hi)
    exact ⟨by simp [hsel], by rw [Tap.captured, if_neg (by simp [hsel])]⟩
  obtain ⟨_, w1, u1, e1, hw1, hu1, hres1⟩ := shiftPairs_of_clocks hs hv ht
    (List.append_ne_nil_of_right_ne_nil _ (by decide)) (Tap.clocks_instrWalk hn t.par.bypassCode_length hne hreg)
  have hdata : values.flatMap wordBits ++ [false] ≠ [] := by simp
  have hvec : bypassDrVector values ≠ [] := List.ne_nil_of_length_pos
    ((exitShift_length hdata).symm ▸ List.length_pos_iff.2 hdata)
  obtain ⟨_, w2, u2, e2, hw2, ⟨rfl, hu2⟩, hres2⟩ := shiftPairs_of_clocks hres1.ready (hres1.isValid_point hv) hw1 hvec
    (hu1.clocks_exitShift (List.cons_ne_nil _ _) hdata)
  rw [hres1.point] at hres2
  refine ⟨w2, u2, ?_, hw2, hu2, hres1.trans hres2⟩
  have hbits : ([false] ++ (values.flatMap wordBits ++ [false])).take (values.flatMap wordBits ++ [false]).length =
      [false] ++ values.flatMap wordBits ++ [] := by
    rw [← List.append_assoc, List.take_left' (by simp [Nat.add_comm]), List.append_nil]
  rw [probeBypassVec, needHandle_eq_ok.2 ⟨hh, rfl⟩, Res.bind_ok, needIdentity_eq_ok.2 ⟨hd, rfl⟩, Res.bind_ok,
    if_neg hvalues, hir]
  refine (congrArg (Res.bind · _) e1).trans ?_
  rw [Res.bind_ok, e2, Res.bind_ok, hbits]
  exact congrArg (Res.ok · w2) (windows_packBits [false] [] values)

end

/-- Settles O38. -/
theorem probeIdcodeReadsTheIdentifier : Obligations.ProbeIdcodeReadsTheIdentifier :=
  fun _ _ _ hs hv ht hn hd hir hcmd hpos hid => (probeIdcode_probed hs hv ht hn hd hir hpos hcmd hid).out .word

/-- Settles O39. -/
theorem probeBypassReturnsItsPayload : Obligations.ProbeBypassReturnsItsPayload :=
  fun _ _ _ _ _ hs hv ht hn hd hir hpos hclash hvalues =>
    ⟨(probeBypassVec_probed hs hv ht hn hd hir hpos hclash hvalues).out .words,
      (probeBypassVec_probed hs hv ht hn hd hir hpos hclash (List.cons_ne_nil _ _)).out fun ws => .word (ws.headD 0)⟩

/-! ### Detection -/

/-- A probe leaves a TAP that the next one can begin with. -/
theorem Tap.Reaches.navigable {t u : Tap} {code : Bits} (h : t.Reaches .exit1Dr code u) : u.navigable := by
  intro _ hx
  rw [h.state] at hx
  exact absurd hx (by decide)

/-- One round of the sweep: the timing value is set and the chain scanned at it (R266). -/
def detectRound (tp : Nat) (s : State) : Res Word := (setTimingParam tp s).bind fun _ s1 => scanChain s1

/-- The catalog's record is one of the value looked up (R261). -/
theorem idcode_of_lookup {c : Config} {id : Word} {d : DeviceIdentity} (h : lookup c id = some d) : d.idcode = id := by
  simpa using List.find?_some h

section
variable {s w : State} {h : Handle} {t : Tap} {tp : Nat} {id : Word} {rest : List Nat}

/-- A round that reads a value of the catalog ends the sweep with its record. -/
theorem detectSweep_of_found {d : DeviceIdentity} (e : detectRound tp s = .ok id w) (hd : lookup w.cfg id = some d) :
    detectSweep (tp :: rest) s = .ok () (w.setIdentity (some d)) := by
  obtain ⟨_, s1, e1, e2⟩ := Res.bind_eq_ok.1 e
  rw [detectSweep, e1, Res.bind_ok, e2, Res.bind_ok, hd, ← idcode_of_lookup hd]

/-- A round that reads another value leads to the next one. -/
theorem detectSweep_of_notFound (e : detectRound tp s = .ok id w) (hd : lookup w.cfg id = none) :
    detectSweep (tp :: rest) s = detectSweep rest w := by
  obtain ⟨_, s1, e1, e2⟩ := Res.bind_eq_ok.1 e
  rw [detectSweep, e1, Res.bind_ok, e2, Res.bind_ok, hd]

/-- At a valid point a round reads the device's answer. -/
theorem detectRound_scans (hs : s.shiftReady) (hh : s.handle = some h) (ht : s.target = .chain [t]) (hn : t.navigable)
    (htp : tp ≤ tpMax s.cfg h) (hv : s.env.isValid (s.shiftPoint.1, tp) = true) :
    ∃ w u, detectRound tp s = .ok t.par.scanned w ∧ w.target = .chain [u] ∧ u.navigable ∧ u.par = t.par
      ∧ Resumes s (s.shiftPoint.1, tp) w := by
  obtain ⟨s1, e1, ht1, hres1⟩ := setTimingParam_of_le hs hh htp
  obtain ⟨w, u, e2, hw, hu, hres2⟩ := scanChain_probed hres1.ready (hres1.isValid_point hv) (ht1.trans ht) hn
  rw [hres1.point] at hres2
  exact ⟨w, u, by rw [detectRound, e1, Res.bind_ok, e2], hw, hu.navigable, hu.par, hres1.trans hres2⟩

/-- A sweep over valid points whose scans the catalog does not hold raises DetectionFailure at its last value (R312). -/
theorem detectSweep_of_unknown (tps : List Nat) (hs : s.shiftReady) (hh : s.handle = some h)
    (ht : s.target = .chain [t]) (hn : t.navigable) (htps : ∀ tp ∈ tps, tp ≤ tpMax s.cfg h)
    (hv : ∀ tp ∈ tps, s.env.isValid (s.shiftPoint.1, tp) = true) (hunknown : lookup s.cfg t.par.scanned = none) :
    ∃ w, detectSweep tps s = .ok () (w.setDiags (w.diags ++ [.detectionFailure])) ∧
      Resumes s (s.shiftPoint.1, tps.getLastD s.shiftPoint.2) w := by
  induction tps generalizing s t with
  | nil => exact ⟨s, rfl, .refl hs⟩
  | cons tp tps ih =>
    obtain ⟨htp, htps⟩ := List.forall_mem_cons.1 htps
    obtain ⟨hvtp, hv⟩ := List.forall_mem_cons.1 hv
    obtain ⟨w, u, e, hw, hu, hpar, hres⟩ := detectRound_scans hs hh ht hn htp hvtp
    obtain ⟨x, ex, hx⟩ := ih hres.ready (hres.handle.trans hh) hw hu (by rwa [hres.cfg])
      (fun y m => by rw [hres.valid, hres.point]; exact hv y m) (by rwa [hres.cfg, hpar])
    rw [hres.point] at hx
    exact ⟨x, (detectSweep_of_notFound e (by rwa [hres.cfg])).trans ex, by rw [List.getLastD_cons]; exact hres.trans hx⟩

/-- Without an identity, detection is the sweep at the slowest divisor (R266). -/
theorem detect_of_noIdentity (hs : s.shiftReady) (hh : s.handle = some h) (hid : s.identity = none) :
    ∃ w, detect s = detectSweep (List.range (tpMax s.cfg h + 1)) w ∧ w.target = s.target ∧
      Resumes s (slowestDivisor s.cfg h, s.shiftPoint.2) w := by
  obtain ⟨w, e, ht, hres⟩ := setClockDivisor_slowest hs hh
  refine ⟨w, ?_, ht, hres⟩
  rw [detect, needHandle_eq_ok.2 ⟨hh, rfl⟩, Res.bind_ok, hid]
  refine (congrArg (Res.bind · _) e).trans ?_
  rw [Res.bind_ok, hres.cfg]

end

/-- Settles O40: the first round of the sweep finds the record. -/
theorem detectFixesTheFirstIdentity : Obligations.DetectFixesTheFirstIdentity := by
  intro s h t d hs hh hid hv ht hn hhas hfind
  obtain ⟨s1, e1, ht1, hres1⟩ := detect_of_noIdentity hs hh hid
  obtain ⟨w, u, e2, -, -, -, hres2⟩ := detectRound_scans (tp := 0) hres1.ready (hres1.handle.trans hh) (ht1.trans ht) hn
    (Nat.zero_le _) (by rw [hres1.valid, hres1.point]; exact hv)
  rw [hres1.point] at hres2
  have hres := hres1.trans hres2
  have hlookup : lookup w.cfg t.par.scanned = some d := by
    rw [hres.cfg, TapParams.scanned, if_pos hhas]
    exact hfind
  have hdetect : detect s = .ok () (w.setIdentity (some d)) := by
    rw [e1, List.range_succ_eq_map, detectSweep_of_found e2 hlookup]
  refine ⟨giveDetected () (w.setIdentity (some d)), congrArg (Res.out · giveDetected) hdetect, rfl, rfl, hres.diags,
    rfl, hres.rest, ?_, ?_⟩
  · rintro i rfl
    exact (hres.mmioPoint hh).imp_right BitVec.eq_of_toNat_eq
  · rintro a rfl
    exact (hres.usbPoint hh).imp_right Bool.toNat_eq_zero.1

/-- Settles O41: no round of the sweep finds a record, and the last one is at the last timing value. -/
theorem detectFailsSoftly : Obligations.DetectFailsSoftly := by
  intro s h t hs hh hid hv ht hn hunknown
  obtain ⟨s1, e1, ht1, hres1⟩ := detect_of_noIdentity hs hh hid
  have hle (tp : Nat) (m : tp ∈ List.range (tpMax s.cfg h + 1)) : tp ≤ tpMax s.cfg h :=
    Nat.lt_succ_iff.1 (List.mem_range.1 m)
  have hlookup : lookup s1.cfg t.par.scanned = none := by
    rw [hres1.cfg]
    exact List.find?_eq_none.2 fun r m => by simpa [TapParams.scanned] using hunknown r m
  obtain ⟨w, e2, hres2⟩ := detectSweep_of_unknown (List.range (tpMax s.cfg h + 1)) hres1.ready (hres1.handle.trans hh)
    (ht1.trans ht) hn (by rw [hres1.cfg]; exact hle)
    (fun tp m => by rw [hres1.valid, hres1.point]; exact hv tp (hle tp m)) hlookup
  rw [hres1.point, List.range_succ, List.getLastD_concat] at hres2
  have hres := hres1.trans hres2
  have hidentity := hres.identity.trans hid
  refine ⟨giveDetected () (w.setDiags (w.diags ++ [ErrorKind.detectionFailure])),
    congrArg (Res.out · giveDetected) (e1.trans e2), hidentity, ?_, ?_, rfl, hres.rest, ?_, ?_⟩
  · exact congrArg Option.isSome hidentity
  · exact congrArg (· ++ [ErrorKind.detectionFailure]) hres.diags
  · rintro i rfl
    exact hres.mmioPoint hh
  · rintro a rfl
    exact (hres.usbPoint hh).imp_right Bool.toNat_eq_one.1

/-- Settles O42. -/
theorem detectAgainChangesNothing : Obligations.DetectAgainChangesNothing := by
  intro s hh hid
  obtain ⟨h, hh⟩ := Option.isSome_iff_exists.1 hh
  obtain ⟨d, hid⟩ := Option.isSome_iff_exists.1 hid
  have hdetect : detect s = .ok () s := by rw [detect, needHandle_eq_ok.2 ⟨hh, rfl⟩, Res.bind_ok, hid]
  exact congrArg (Res.out · giveDetected) hdetect

/-! ### Probes that are refused -/

section
variable {s : State} {h : Handle}

theorem probeIdcode_of_noIdentity (hh : s.handle = some h) (hid : s.identity = none) :
    probeIdcode s = .refused .noIdentity := by
  rw [probeIdcode, needHandle_eq_ok.2 ⟨hh, rfl⟩, Res.bind_ok, needIdentity, hid]
  rfl

theorem probeBypassVec_of_noIdentity (hh : s.handle = some h) (hid : s.identity = none) (values : List Word) :
    probeBypassVec values s = .refused .noIdentity := by
  rw [probeBypassVec, needHandle_eq_ok.2 ⟨hh, rfl⟩, Res.bind_ok, needIdentity, hid]
  rfl

theorem probeBypassVec_of_empty (hh : s.handle = some h) {d : DeviceIdentity} (hid : s.identity = some d) :
    probeBypassVec [] s = .refused .emptyPayload := by
  rw [probeBypassVec, needHandle_eq_ok.2 ⟨hh, rfl⟩, Res.bind_ok, needIdentity_eq_ok.2 ⟨hid, rfl⟩, Res.bind_ok,
    if_pos rfl]

end

/-- Settles O43. -/
theorem probesNeedAnIdentity : Obligations.ProbesNeedAnIdentity := by
  intro s value values hh
  obtain ⟨h, hh⟩ := Option.isSome_iff_exists.1 hh
  refine ⟨fun hno => ?_, fun hsome => ?_⟩
  · have hid : s.identity = none := Option.isNone_iff_eq_none.1 (Option.isSome_eq_false_iff.1 hno)
    exact ⟨congrArg (Res.out · giveProbed) (probeIdcode_of_noIdentity hh hid),
      congrArg (Res.out · giveFirst) (probeBypassVec_of_noIdentity hh hid [value]),
      congrArg (Res.out · giveWords) (probeBypassVec_of_noIdentity hh hid values)⟩
  · obtain ⟨d, hid⟩ := Option.isSome_iff_exists.1 hsome
    exact congrArg (Res.out · giveWords) (probeBypassVec_of_empty hh hid)

end Sys2Proof.Machine
end

section
/-! ## The calibration window (O57) -/

namespace Sys2Proof.Machine

/-- The window after `k` passes in a row from delay `a` on: recorded once they are `max(h, 1)` (R285). -/
def Window.passing (h a k : Nat) : Window :=
  if max h 1 ≤ k then { recording := true, run := k, start := a, count := k, ended := false }
  else { Window.empty with run := k }

theorem Window.passing_zero (h a : Nat) : Window.passing h a 0 = Window.empty := if_neg (by omega)

theorem Window.passing_of_le {h a k : Nat} (hk : max h 1 ≤ k) :
    Window.passing h a k = { recording := true, run := k, start := a, count := k, ended := false } := if_pos hk

theorem Window.push_fail_empty (h d : Nat) : Window.empty.push h d false = Window.empty := rfl

theorem Window.push_fail_of_recording {w : Window} (hw : w.recording = true) (h d : Nat) :
    w.push h d false = { w with ended := true } := by
  simp [Window.push, hw]

/-- One more pass: before recording, at the pass that begins it (whose start is backdated to `a`), and after. -/
theorem Window.push_pass_passing (h a k : Nat) :
    (Window.passing h a k).push h (a + k) true = Window.passing h a (k + 1) := by
  by_cases hk : max h 1 ≤ k
  · rw [Window.passing_of_le hk, Window.passing_of_le (by omega)]
    rfl
  · by_cases hk1 : max h 1 ≤ k + 1 <;> simp [Window.passing, hk, Window.push, hk1, Window.empty]

/-- The window after the delays below `n`, where exactly `a..b` pass. -/
def Window.swept (h a b n : Nat) : Window :=
  if n ≤ b + 1 then Window.passing h a (n - a) else { Window.passing h a (b - a + 1) with ended := true }

/-- The three phases of a sweep: fails before `a`, passes from `a` to `b`, fails after `b`. -/
theorem Window.push_swept {h a b : Nat} (hab : a ≤ b) (hrun : max h 1 ≤ b - a + 1) (n : Nat) :
    (Window.swept h a b n).push h n (decide (a ≤ n ∧ n ≤ b)) = Window.swept h a b (n + 1) := by
  rcases Nat.lt_or_ge n a with hn | han
  · rw [decide_eq_false (by omega), Window.swept, Window.swept, if_pos (by omega), if_pos (by omega),
      Nat.sub_eq_zero_of_le hn.le, Nat.sub_eq_zero_of_le hn, Window.passing_zero, Window.push_fail_empty]
  rcases Nat.lt_or_ge b n with hbn | hnb
  · have hrec : (Window.passing h a (b - a + 1)).recording = true := by rw [Window.passing_of_le hrun]
    rw [decide_eq_false (by omega), Window.swept, Window.swept, if_neg (show ¬ n + 1 ≤ b + 1 by omega)]
    split
    · rw [show n - a = b - a + 1 by omega, Window.push_fail_of_recording hrec]
    · exact Window.push_fail_of_recording (w := { Window.passing h a (b - a + 1) with ended := true }) hrec h n
  · have hpass := Window.push_pass_passing h a (n - a)
    rw [Nat.add_sub_of_le han, ← Nat.sub_add_comm han] at hpass
    rw [decide_eq_true ⟨han, hnb⟩, Window.swept, Window.swept, if_pos (by omega), if_pos (by omega), hpass]

theorem Window.foldl_push_range {h a b : Nat} (hab : a ≤ b) (hrun : max h 1 ≤ b - a + 1) (n : Nat) :
    (List.range n).foldl (fun w d => w.push h d (decide (a ≤ d ∧ d ≤ b))) Window.empty = Window.swept h a b n := by
  induction n with
  | zero => rw [Window.swept, if_pos (Nat.zero_le _), Nat.zero_sub, Window.passing_zero]; rfl
  | succ n ih => rw [List.range_succ, List.foldl_append, ih]; exact Window.push_swept hab hrun n

/-- Once every delay up to `b` has been seen, the window is the whole of `a..b`. -/
theorem Window.swept_of_lt {h a b n : Nat} (hab : a ≤ b) (hn : b < n) :
    ∃ e, Window.swept h a b n = { Window.passing h a (b - a + 1) with ended := e } := by
  unfold Window.swept
  split
  · exact ⟨_, by rw [show n - a = b - a + 1 by omega]⟩
  · exact ⟨true, rfl⟩

/-- Settles O57. -/
theorem windowStartIsBackdated : Obligations.WindowStartIsBackdated := by
  intro h a b m hab hbm hrun
  obtain ⟨e, hw⟩ := Window.swept_of_lt (h := h) hab (Nat.lt_succ_of_le hbm)
  rw [Window.foldl_push_range hab hrun, hw, Window.passing_of_le hrun]
  exact ⟨rfl, rfl, rfl⟩

end Sys2Proof.Machine
end

section
/-! ## The calibration table (O58, O59) -/

namespace Sys2Proof.Machine

/-! ### Finalize -/

theorem renumber_map_id (k : Nat) (ps : List CalibrationPoint) :
    (renumber k ps).map CalibrationPoint.id = List.range' k ps.length := by
  induction ps generalizing k with
  | nil => rfl
  | cons p ps ih => rw [renumber, List.map_cons, ih]; rfl

/-- What does not depend on the id is the same, point by point. -/
theorem renumber_map {α : Type} {f : CalibrationPoint → α} (hf : ∀ p i, f { p with id := i } = f p) (k : Nat)
    (ps : List CalibrationPoint) : (renumber k ps).map f = ps.map f := by
  induction ps generalizing k with
  | nil => rfl
  | cons p ps ih => rw [renumber, List.map_cons, List.map_cons, ih, hf]

theorem renumber_length (k : Nat) (ps : List CalibrationPoint) : (renumber k ps).length = ps.length := by
  simpa using congrArg List.length (renumber_map_id k ps)

theorem tableFinalize_ids (s : State) :
    (tableFinalize s).table.map CalibrationPoint.id = List.range s.table.length :=
  (renumber_map_id 0 s.table).trans List.range_eq_range'.symm

/-- Settles O58. -/
theorem finalizeMakesIdsDense : Obligations.FinalizeMakesIdsDense := fun s k =>
  ⟨tableFinalize_ids s, renumber_map (fun _ _ => rfl) 0 s.table, tableFinalize_ids (tableRemove k s)⟩

/-! ### The fastest point -/

/-- `p` is the first of the fastest points of the table (R282). -/
def CalibrationPoint.FirstFastest (p : CalibrationPoint) (items : List CalibrationPoint) : Prop :=
  ∃ before after, items = before ++ p :: after
    ∧ (∀ q ∈ before, q.clockFrequencyHz < p.clockFrequencyHz) ∧ (∀ q ∈ after, q.clockFrequencyHz ≤ p.clockFrequencyHz)

namespace CalibrationPoint.FirstFastest
variable {p q : CalibrationPoint} {items : List CalibrationPoint}

theorem singleton (p : CalibrationPoint) : p.FirstFastest [p] := ⟨[], [], rfl, by simp, by simp⟩

theorem le (h : p.FirstFastest items) : ∀ q ∈ items, q.clockFrequencyHz ≤ p.clockFrequencyHz := by
  obtain ⟨before, after, rfl, hbefore, hafter⟩ := h
  intro q hq
  rcases List.mem_append.1 hq with hq | hq
  · exact (hbefore q hq).le
  · rcases List.mem_cons.1 hq with rfl | hq
    · exact le_rfl
    · exact hafter q hq

/-- A later point that is not faster does not replace it. -/
theorem append_slower (h : p.FirstFastest items) (hq : q.clockFrequencyHz ≤ p.clockFrequencyHz) :
    p.FirstFastest (items ++ [q]) := by
  obtain ⟨before, after, rfl, hbefore, hafter⟩ := h
  refine ⟨before, after ++ [q], by simp, hbefore, fun r hr => ?_⟩
  rcases List.mem_append.1 hr with hr | hr
  · exact hafter r hr
  · rwa [List.mem_singleton.1 hr]

/-- A later point that is faster replaces it. -/
theorem append_faster (h : p.FirstFastest items) (hq : p.clockFrequencyHz < q.clockFrequencyHz) :
    q.FirstFastest (items ++ [q]) :=
  ⟨items, [], rfl, fun r hr => (h.le r hr).trans_lt hq, by simp⟩

end CalibrationPoint.FirstFastest

theorem getItemByMaxFrequency_append (items : List CalibrationPoint) (p : CalibrationPoint) :
    getItemByMaxFrequency (items ++ [p]) = fasterOf (getItemByMaxFrequency items) p := by
  rw [getItemByMaxFrequency, List.foldl_append]; rfl

theorem fasterOf_ne_none (best : Option CalibrationPoint) (p : CalibrationPoint) : fasterOf best p ≠ none := by
  unfold fasterOf
  split
  · simp
  · split <;> simp

theorem getItemByMaxFrequency_eq_none {items : List CalibrationPoint} :
    getItemByMaxFrequency items = none ↔ items = [] := by
  rcases List.eq_nil_or_concat' items with rfl | ⟨items, p, rfl⟩
  · exact iff_of_true rfl rfl
  · rw [getItemByMaxFrequency_append]
    exact iff_of_false (fasterOf_ne_none _ p) (by simp)

theorem firstFastest_of_getItemByMaxFrequency {items : List CalibrationPoint} {p : CalibrationPoint}
    (h : getItemByMaxFrequency items = some p) : p.FirstFastest items := by
  induction items using List.reverseRecOn generalizing p with
  | nil => cases h
  | append_singleton items q ih =>
    rw [getItemByMaxFrequency_append] at h
    cases hbest : getItemByMaxFrequency items with
    | none =>
      rw [hbest] at h
      cases h
      rw [getItemByMaxFrequency_eq_none.1 hbest]
      exact .singleton q
    | some b =>
      rw [hbest] at h
      change (if b.clockFrequencyHz < q.clockFrequencyHz then some q else some b) = some p at h
      split at h
      · cases h
        exact (ih hbest).append_faster ‹_›
      · cases h
        exact (ih hbest).append_slower (Nat.le_of_not_lt ‹_›)

/-- Settles O59. -/
theorem maxFrequencyKeepsTheFirst : Obligations.MaxFrequencyKeepsTheFirst :=
  ⟨fun _ _ => firstFastest_of_getItemByMaxFrequency, fun _ => getItemByMaxFrequency_eq_none⟩

end Sys2Proof.Machine
end

section
/-! ## The calibrators (O60)

A property of every point of the table: no move adds a point, so the probes and setters keep it; an appended point has
to have it; hardening and finalize keep it. -/

namespace Sys2Proof.Machine

/-! ### Programs that leave the table alone -/

theorem applyPoint_moves (div tp : Nat) (s : State) : (applyPoint div tp s).moves true s :=
  Res.moves_bind (setClockDivisor_moves _ s) fun _ t => setTimingParam_moves _ t

theorem probePoint_moves (byIdcode : Bool) (div tp : Nat) (s : State) : (probePoint byIdcode div tp s).moves true s := by
  refine Res.moves_bind (applyPoint_moves div tp s) fun _ t => ?_
  split
  · exact (needIdentity_post t).look fun _ _ => Res.moves_bind (probeIdcode_moves t) fun _ _ => Res.moves_same
  · exact Res.moves_bind (Res.moves_from (Move.draws t _).moves (probeBypassVec_moves _ _)) fun _ _ => Res.moves_same

theorem innerSweep_moves (k : MmioCalibration) (div : Nat) (ds : List Nat) (w : Window) (s : State) :
    (innerSweep k div ds w s).moves true s := by
  induction ds generalizing w s with
  | nil => exact Res.moves_same
  | cons d ds ih =>
    unfold innerSweep
    split
    · exact Res.moves_same
    · exact Res.moves_bind (probePoint_moves _ div d s) fun _ t => ih _ t

theorem replayPatterns_moves (pats : List (List Word)) (s : State) : (replayPatterns pats s).moves true s := by
  induction pats generalizing s with
  | nil => exact Res.moves_same
  | cons pat pats ih =>
    refine Res.moves_bind (probeBypassVec_moves pat s) fun _ t => ?_
    split
    · exact ih t
    · exact Res.moves_same

theorem repeatIdcode_moves (k : Nat) (s : State) : (repeatIdcode k s).moves true s := by
  induction k generalizing s with
  | zero => exact Res.moves_same
  | succ k ih =>
    refine (needIdentity_post s).look fun _ _ => Res.moves_bind (probeIdcode_moves s) fun _ t => ?_
    split
    · exact ih t
    · exact Res.moves_same

/-! ### Tables all of whose points satisfy a property -/

/-- The configuration is `c`, and every point of the table satisfies `P`. -/
structure AllPoints (P : CalibrationPoint → Prop) (c : Config) (t : State) : Prop where
  cfg : t.cfg = c
  points : ∀ p ∈ t.table, P p

section
variable {α : Type} {P : CalibrationPoint → Prop} {c : Config} {s : State}

theorem Move.allPoints {b : Bool} {t : State} (m : Move b s t) (h : AllPoints P c s) : AllPoints P c t := by
  obtain ⟨hcfg, hpoints⟩ := h
  cases m
  case opened => exact ⟨hcfg, fun _ hp => nomatch hp⟩
  all_goals exact ⟨hcfg, hpoints⟩

theorem Res.moves.allPoints {b : Bool} {x : Res α} (hx : x.moves b s) (h : AllPoints P c s) :
    x.Post (fun _ => AllPoints P c) (AllPoints P c) :=
  hx.mono (fun _ _ m => m.keep (fun _ _ => Move.allPoints) h) fun _ m => m.keep (fun _ _ => Move.allPoints) h

theorem AllPoints.clear (s : State) : AllPoints P s.cfg (tableClear s) := ⟨rfl, fun _ hp => nomatch hp⟩

theorem AllPoints.append {p : CalibrationPoint} (h : AllPoints P c s) (hp : P p) : AllPoints P c (tableAppend p s) :=
  ⟨h.cfg, fun q hq => (List.mem_append.1 hq).elim (h.points q) fun hq => List.mem_singleton.1 hq ▸ hp⟩

theorem forall_renumber (hP : ∀ p i, P p → P { p with id := i }) {ps : List CalibrationPoint} (h : ∀ p ∈ ps, P p)
    (k : Nat) : ∀ p ∈ renumber k ps, P p := by
  induction ps generalizing k with
  | nil => exact h
  | cons p ps ih =>
    obtain ⟨hp, hps⟩ := List.forall_mem_cons.1 h
    exact List.forall_mem_cons.2 ⟨hP p k hp, ih hps (k + 1)⟩

/-- What a calibrator answers: dense ids, and the property of every point, where it does not speak of ids. -/
theorem AllPoints.finalize (hP : ∀ p i, P p → P { p with id := i }) (h : AllPoints P c s) :
    (tableFinalize s).table.map CalibrationPoint.id = List.range (tableFinalize s).table.length
      ∧ ∀ p ∈ (tableFinalize s).table, P p :=
  ⟨(tableFinalize_ids s).trans (congrArg List.range (renumber_length 0 s.table).symm),
    forall_renumber hP h.points 0⟩

/-! ### Hardening -/

/-- Hardening keeps some of the candidates (R291). -/
theorem hardenItems_post (passes : Nat) (cap : Option Nat) (ps : List CalibrationPoint) (h : AllPoints P c s) :
    (hardenItems passes cap ps s).Post (fun kept t => AllPoints P c t ∧ kept ⊆ ps) (AllPoints P c) := by
  fun_induction hardenItems passes cap ps s with
  | case1 => exact ⟨h, List.Subset.refl _⟩
  | case2 => exact ⟨h, List.Subset.refl _⟩
  | case3 cap p ps s _ ih =>
    refine ((applyPoint_moves _ _ s).allPoints h).bind fun _ s1 h1 => ?_
    refine ((replayPatterns_moves _ s1).allPoints h1).bind fun good s2 h2 => ?_
    have hverdict : (if good then Res.ok () s2 else raise .hardeningRejected s2).moves true s2 := by
      split
      · exact Res.moves_same
      · exact raise_moves true _ s2
    refine (hverdict.allPoints h2).bind fun _ s3 h3 => (ih s3 h3).bind fun kept s4 ⟨h4, hkept⟩ => ⟨h4, ?_⟩
    split
    · exact List.cons_subset_cons p hkept
    · exact List.subset_cons_of_subset p hkept

theorem hardenIf_post (passes quickStop : Option Nat) (h : AllPoints P c s) :
    (hardenIf passes quickStop s).Post (fun _ => AllPoints P c) (AllPoints P c) := by
  cases passes with
  | none => exact h
  | some n =>
    exact (hardenItems_post n quickStop s.table h).bind fun kept t ⟨ht, hkept⟩ =>
      ⟨ht.cfg, fun p hp => h.points p (hkept hp)⟩

end

/-! ### The MMIO calibrator -/

/-- What the acceptance gate lets into the table (R286, R323). -/
def CalibrationPoint.Gated (c : Config) (p : CalibrationPoint) : Prop :=
  p.clockDivisor / 2 ≤ p.validPointCount ∧ p.clockFrequencyHz = mmioHz c p.clockDivisor

theorem Window.point_gated {w : Window} {div : Nat} (hw : w.accepted div = true) (k : MmioCalibration) (c : Config)
    (id : Nat) : (w.point k c id div).Gated c := by
  obtain ⟨-, hcount⟩ := Bool.and_eq_true_iff.1 hw
  exact ⟨of_decide_eq_true hcount, rfl⟩

theorem outerSweep_post (k : MmioCalibration) (divs : List Nat) {c : Config} {s : State}
    (h : AllPoints (CalibrationPoint.Gated c) c s) :
    (outerSweep k divs s).Post (fun _ => AllPoints (CalibrationPoint.Gated c) c)
      (AllPoints (CalibrationPoint.Gated c) c) := by
  induction divs generalizing s with
  | nil => exact h
  | cons div divs ih =>
    refine ((innerSweep_moves k div _ _ s).allPoints h).bind fun w s1 h1 => ?_
    split
    · exact ih (h1.append (h1.cfg ▸ Window.point_gated ‹_› k s1.cfg _))
    · exact (raise_moves true _ s1).allPoints h1

theorem calibrateMmio_post (k : MmioCalibration) (s : State) :
    (calibrateMmio k s).Post (fun items _ => items.map CalibrationPoint.id = List.range items.length
      ∧ ∀ p ∈ items, p.Gated s.cfg) (AllPoints (CalibrationPoint.Gated s.cfg) s.cfg) :=
  (needMmio_post s).look fun _ _ =>
  (outerSweep_post k _ (.clear s)).bind fun _ _ h1 =>
  (hardenIf_post _ _ h1).bind fun _ _ h2 => h2.finalize fun _ _ => id

/-! ### The USB calibrator -/

/-- What the divisor range of the run lets into the table (R296, R324). -/
def CalibrationPoint.InRange (c : Config) (minFreq maxFreq : Nat) (p : CalibrationPoint) : Prop :=
  p.clockDivisor ∈ usbDivisors c minFreq maxFreq ∧ p.clockFrequencyHz = usbHz c p.clockDivisor

theorem mem_usbDivisors {c : Config} {minFreq maxFreq div : Nat} : div ∈ usbDivisors c minFreq maxFreq ↔
    div ≤ c.usbDivMax ∧ minFreq * ((div + 1) * 2) ≤ c.usbBaseClockHz
      ∧ c.usbBaseClockHz ≤ maxFreq * ((div + 1) * 2) := by
  simp [usbDivisors, usbWithin]

section
variable {c : Config} {minFreq maxFreq : Nat} {s : State}

theorem usbCombination_post (loop : Nat) {div : Nat} (edge : Bool) (hdiv : div ∈ usbDivisors c minFreq maxFreq)
    (h : AllPoints (CalibrationPoint.InRange c minFreq maxFreq) c s) :
    (usbCombination loop div edge s).Post (fun _ => AllPoints (CalibrationPoint.InRange c minFreq maxFreq) c)
      (AllPoints (CalibrationPoint.InRange c minFreq maxFreq) c) := by
  refine ((applyPoint_moves _ _ s).allPoints h).bind fun _ s1 h1 => ?_
  refine ((repeatIdcode_moves loop s1).allPoints h1).bind fun ok s2 h2 => ?_
  split
  · exact (Move.draws (b := true) _ _).allPoints (h2.append ⟨hdiv, h2.cfg ▸ rfl⟩)
  · exact h2

theorem usbSweep_post (loop : Nat) {points : List (Nat × Bool)}
    (hpoints : ∀ x ∈ points, x.1 ∈ usbDivisors c minFreq maxFreq)
    (h : AllPoints (CalibrationPoint.InRange c minFreq maxFreq) c s) :
    (usbSweep loop points s).Post (fun _ => AllPoints (CalibrationPoint.InRange c minFreq maxFreq) c)
      (AllPoints (CalibrationPoint.InRange c minFreq maxFreq) c) := by
  induction points generalizing s with
  | nil => exact h
  | cons x points ih =>
    obtain ⟨hx, hpoints⟩ := List.forall_mem_cons.1 hpoints
    exact (usbCombination_post loop x.2 hx h).bind fun _ _ h1 => ih hpoints h1

end

theorem calibrateUsb_post (k : UsbCalibration) (s : State) :
    (calibrateUsb k s).Post (fun items _ => items.map CalibrationPoint.id = List.range items.length
      ∧ ∀ p ∈ items, p.InRange s.cfg k.minFreq k.maxFreq)
      (AllPoints (CalibrationPoint.InRange s.cfg k.minFreq k.maxFreq) s.cfg) := by
  refine (needUsb_post s).look fun _ _ => ?_
  have hpoints (edges : List Bool) : ∀ x ∈ (usbDivisors s.cfg k.minFreq k.maxFreq).flatMap fun div =>
      edges.map fun e => (div, e), x.1 ∈ usbDivisors s.cfg k.minFreq k.maxFreq := by
    intro x hx
    obtain ⟨div, hdiv, hx⟩ := List.mem_flatMap.1 hx
    obtain ⟨e, -, rfl⟩ := List.mem_map.1 hx
    exact hdiv
  exact (usbSweep_post k.loop (hpoints _) (.clear s)).bind fun _ _ h1 => h1.finalize fun _ _ => id

/-! ### Either calibrator -/

/-- Settles O60: the calibrator of the backend answers a finalized table of points that passed its own test. -/
theorem calibratedPointsPassTheGate : Obligations.CalibratedPointsPassTheGate := by
  intro m k s t items e
  obtain ⟨h, s1, hh, e⟩ := Res.bind_eq_ok.1 e
  obtain ⟨hh, rfl⟩ := needHandle_eq_ok.1 hh
  cases h with
  | mmio i =>
    have hpost := calibrateMmio_post m s1
    rw [show calibrateMmio m s1 = _ from e] at hpost
    obtain ⟨hids, hgated⟩ := hpost
    exact ⟨hids, fun _ _ => hgated, fun a ha => by rw [hh] at ha; cases ha⟩
  | usb a =>
    have hpost := calibrateUsb_post k s1
    rw [show calibrateUsb k s1 = _ from e] at hpost
    obtain ⟨hids, hrange⟩ := hpost
    refine ⟨hids, fun i hi => (by rw [hh] at hi; cases hi), fun _ _ p hp => ?_⟩
    obtain ⟨hdiv, hhz⟩ := hrange p hp
    obtain ⟨hmax, hlow, hhigh⟩ := mem_usbDivisors.1 hdiv
    exact ⟨hmax, hlow, hhigh, hhz⟩

end Sys2Proof.Machine
end

section
/-! ## Parameters out of range (O6)

On MMIO the check comes before the register write, and its only trace is the diagnostic; on USB there is no check
(R315, R136). -/

namespace Sys2Proof.Machine

section
variable {s : State} {v : Int}

/-- On MMIO a divisor out of range is reported and nothing is written (R315). -/
theorem setClockDivisor_of_outOfRange {u : Nat} (hh : s.handle = some (.mmio u))
    (hv : v < 0 ∨ (s.cfg.divMax : Int) < v) :
    setClockDivisor v s = .ok () (s.setDiags (s.diags ++ [.outOfRangeParameter])) := by
  rw [setClockDivisor, needHandle_eq_ok.2 ⟨hh, rfl⟩, Res.bind_ok]
  exact if_pos hv

/-- On MMIO a timing value out of range is reported and nothing is written (R315). -/
theorem setTimingParam_of_outOfRange {u : Nat} (hh : s.handle = some (.mmio u))
    (hv : v < 0 ∨ (s.cfg.delayMax : Int) < v) :
    setTimingParam v s = .ok () (s.setDiags (s.diags ++ [.outOfRangeParameter])) := by
  rw [setTimingParam, needHandle_eq_ok.2 ⟨hh, rfl⟩, Res.bind_ok]
  exact if_pos hv

/-- On USB a divisor, in range or not, costs one write transfer, and those emit no diagnostic (R136). -/
theorem setClockDivisor_keeps_of_usb {a : UsbAddress} (hh : s.handle = some (.usb a)) :
    (setClockDivisor v s).keeps s := by
  rw [setClockDivisor, needHandle_eq_ok.2 ⟨hh, rfl⟩, Res.bind_ok]
  exact usbWrite_keeps _ _

/-- A setter that keeps its diagnostics shows its caller those it found. -/
theorem Res.keeps.diags_of_out {x : Res Unit} {t : State} (h : x.keeps s) (e : x.out giveDone = .next t) :
    t.diags = s.diags := by
  obtain ⟨_, u, rfl, rfl⟩ | rfl := Res.out_eq_next.1 e
  all_goals
    obtain ⟨-, -, -, -, -, hdiags, -⟩ := h
    exact hdiags

end

/-- Settles O6: on MMIO the check comes before any write, on USB nothing that a setter does emits a diagnostic. -/
theorem outOfRangeParameterIsSoft : Obligations.OutOfRangeParameterIsSoft := by
  refine ⟨fun s u v hh => ⟨fun hv => ?divisor, fun hv => ?timing⟩, fun s t a v hh => ?usb⟩
  case divisor => exact congrArg (Res.out · giveDone) (setClockDivisor_of_outOfRange hh hv)
  case timing => exact congrArg (Res.out · giveDone) (setTimingParam_of_outOfRange hh hv)
  case usb =>
    rintro (e | e)
    · exact (setClockDivisor_keeps_of_usb hh).diags_of_out e
    · have set : (setTimingParam v s).out giveDone = .next t := e
      rw [setTimingParam_of_usb hh] at set
      cases set
      rfl

end Sys2Proof.Machine
end

section
/-! ## The bound of the busy-poll (O35)

With POLL_LIMIT above 0 the poll ends in TransportTimeout exactly at its POLL_LIMIT-th busy read (R196, R204, R316). -/

namespace Sys2Proof.Machine

/-! ### The looks of one poll -/

theorem movesLeft_pos {s0 : State} {c : Nat} {b : Bool} : 0 < movesLeft s0 c b ↔ b = true := by
  cases b <;> simp [movesLeft]

/-- Once the looks are used up, an unresponsive sequencer runs the poll into its bound (R316). -/
theorem busyPoll_of_unresponsive {s : State} (halive : s.env.engineAlive = false) (hlimit : 0 < s.cfg.pollLimit)
    (polls : Nat) : busyPoll [] polls s = .fault .transportTimeout := by
  rw [busyPoll, halive, if_neg Bool.false_ne_true, if_pos hlimit]
  rfl

section
variable {s0 s : State} {c : Nat} {b : Bool} (hh : ∃ i, s0.handle = some (.mmio i)) (hmask : s0.cfg.statusBusy ≠ 0)
  (hall : ∃ bits u, clockAll s0.mmioPoint s0.mmio.chunkCycles s0 = .ok bits u)
include hh hmask hall

/-- One look of the host: the sequencer moves `k` times first, and the read shows busy while moves are left (R196). -/
theorem Running.look (k : Nat) (rest : List Nat) (polls : Nat) (h : Running s0 c b s) :
    ∃ u c' b', Running s0 c' b' u ∧ u.env.pace = rest ∧ u.statusReads = s.statusReads + 1 ∧
      movesLeft s0 c' b' = movesLeft s0 c b - k ∧
      busyPoll (k :: rest) polls s =
        if k < movesLeft s0 c b then
          if 0 < s0.cfg.pollLimit ∧ s0.cfg.pollLimit ≤ polls + 1 then .fault .transportTimeout
          else busyPoll rest (polls + 1) u
        else .ok () u := by
  obtain ⟨t, c', b', e, ht, hpace, hmoves⟩ := (h.setPace rest).ticks k hall
  obtain ⟨v, u, e', hu, hpace', hshow⟩ := ht.status hh hmask
  have hreads : u.statusReads = s.statusReads + 1 := by
    obtain ⟨-, -, rfl⟩ := mmioStatus_eq_ok.1 e'
    rw [State.setStatusReads_statusReads, engineTicks_statusReads e, State.setEnv_statusReads]
  refine ⟨u, c', b', hu, hpace'.trans hpace, hreads, hmoves, ?_⟩
  have hbusy : k < movesLeft s0 c b ↔ b' = true := by rw [← movesLeft_pos (s0 := s0) (c := c'), hmoves]; omega
  rw [busyPoll, e, Res.bind_ok, e', Res.bind_ok, hshow, hu.frame.1]
  simp only [hbusy, raise]

/-- As many busy reads as the bound end the poll in TransportTimeout (R204). -/
theorem Running.poll_timesOut_of_busyReads (pace : List Nat) (polls : Nat) (h : Running s0 c b s)
    (hbelow : polls < s0.cfg.pollLimit) (hreach : s0.cfg.pollLimit ≤ polls + busyReads pace (movesLeft s0 c b)) :
    busyPoll pace polls s = .fault .transportTimeout := by
  induction pace generalizing polls s c b with
  | nil => rw [busyReads] at hreach; omega
  | cons k rest ih =>
    obtain ⟨u, c', b', hu, -, -, hmoves, e⟩ := h.look hh hmask hall k rest polls
    rw [busyReads] at hreach
    split at hreach
    case isTrue hk =>
      rw [e, if_pos hk]
      split
      case isTrue => rfl
      case isFalse hlimit => exact ih (polls + 1) hu (by omega) (by rw [hmoves]; omega)
    case isFalse => omega

/-- A poll of an unresponsive sequencer whose moves do not finish the chunk ends in TransportTimeout (R316). -/
theorem Running.poll_timesOut_of_unfinished (pace : List Nat) (polls : Nat) (h : Running s0 c b s)
    (halive : s0.env.engineAlive = false) (hlimit : 0 < s0.cfg.pollLimit) (hsum : pace.sum < movesLeft s0 c b) :
    busyPoll pace polls s = .fault .transportTimeout := by
  induction pace generalizing polls s c b with
  | nil =>
    obtain ⟨hcfg, -, henv⟩ := h.frame
    exact busyPoll_of_unresponsive (by rw [henv]; exact halive) (by rw [hcfg]; exact hlimit) polls
  | cons k rest ih =>
    obtain ⟨u, c', b', hu, -, -, hmoves, e⟩ := h.look hh hmask hall k rest polls
    rw [List.sum_cons] at hsum
    rw [e, if_pos (by omega)]
    split
    case isTrue => rfl
    case isFalse => exact ih (polls + 1) hu (by rw [hmoves]; omega)

/-- Fewer busy reads than the bound let the poll of a live sequencer end with its chunk, after one read more (R196). -/
theorem Running.poll_completes_of_busyReads (pace : List Nat) (polls : Nat) (h : Running s0 c b s)
    (halive : s0.env.engineAlive = true) (hp : s.env.pace = pace)
    (hbelow : polls + busyReads pace (movesLeft s0 c b) < s0.cfg.pollLimit) :
    ∃ t, busyPoll pace polls s = .ok () t ∧ Running s0 s0.mmio.length.toNat false t ∧
      t.env.pace.length ≤ pace.length ∧ t.statusReads = s.statusReads + busyReads pace (movesLeft s0 c b) + 1 := by
  induction pace generalizing polls s c b with
  | nil =>
    obtain ⟨-, -, henv⟩ := h.frame
    obtain ⟨t, e, ht, hpace⟩ := h.finish hall
    obtain ⟨v, u, e', hu, hpace', -⟩ := ht.status hh hmask
    refine ⟨u, ?_, hu, by rw [hpace', hpace, hp], ?_⟩
    · rw [busyPoll, if_pos (by rw [henv]; exact halive), e, Res.bind_ok, e', Res.bind_ok]
    · obtain ⟨-, -, rfl⟩ := mmioStatus_eq_ok.1 e'
      exact congrArg (· + 1) (engineTicks_statusReads e)
  | cons k rest ih =>
    obtain ⟨u, c', b', hu, hpace, hreads, hmoves, e⟩ := h.look hh hmask hall k rest polls
    rw [e]
    rw [busyReads] at hbelow ⊢
    split at hbelow
    case isTrue hk =>
      obtain ⟨t, et, ht, hlen, hreads'⟩ := ih (polls + 1) hu hpace (by rw [hmoves]; omega)
      rw [hmoves, hreads] at hreads'
      rw [if_pos hk, if_neg (by omega), if_pos hk, List.length_cons]
      exact ⟨t, et, ht, by omega, by omega⟩
    case isFalse hk =>
      have hdone := hu.eq_end_of_movesLeft (by omega)
      rw [if_neg hk, if_neg hk, List.length_cons]
      exact ⟨u, rfl, hdone, by rw [hpace]; omega, hreads⟩

end

/-! ### The first chunk of a shift -/

/-- The state in which the chunk loop begins: shadows zeroed, nothing captured yet (R192, R193). -/
def State.loopStart (s : State) (n : Nat) : State :=
  (s.setShadow { len := 0, tms := 0, tdi := 0 }).setHost
    { HostSeq.idle with bitsLeft := n, tdoBuf := List.replicate (bytesFor n) 0 }

/-- The state in which the first chunk of a shift has just started (R193, R195). -/
def State.firstChunk (s : State) (n : Nat) (tms tdi : List Byte) : State :=
  (s.loopStart n).nextChunk tms tdi (min 32 n)

theorem firstChunk_length (s : State) (n : Nat) (tms tdi : List Byte) :
    (s.firstChunk n tms tdi).mmio.length.toNat = min 32 n :=
  toNat_ofNat_of_le (Nat.min_le_left _ _)

theorem firstChunk_handle {s : State} {i n : Nat} {tms tdi : List Byte} (hh : s.handle = some (.mmio i)) :
    ∃ i, (s.firstChunk n tms tdi).handle = some (.mmio i) := ⟨i, hh⟩

/-- It has not moved yet. -/
theorem Running.firstChunk (s : State) (n : Nat) (tms tdi : List Byte) :
    Running (s.firstChunk n tms tdi) 0 true (s.firstChunk n tms tdi) := Running.start rfl rfl

/-- Before it stands a move for each of its cycles, and the one that clears busy (R191). -/
theorem movesLeft_firstChunk (s : State) (n : Nat) (tms tdi : List Byte) :
    movesLeft (s.firstChunk n tms tdi) 0 true = min 32 n + 1 := by
  rw [movesLeft, firstChunk_length]
  rfl

/-- Its cycles are the first ones of the vector (R61, R193). -/
theorem firstChunk_chunkCycles (s : State) (n : Nat) (tms tdi : List Byte) :
    (s.firstChunk n tms tdi).mmio.chunkCycles = (vectorOf n tms tdi).take (min 32 n) := by
  have hle := Nat.min_le_left 32 n
  have hseg := vectorOf_take_add (n := n) (p := 0) (k := min 32 n) tms tdi (by omega)
  rw [Nat.zero_add, List.take_zero, List.nil_append] at hseg
  rw [hseg]
  exact chunkCycles_chunkWord (a := 0) hle (firstChunk_length s n tms tdi) rfl rfl

/-- Where the cycles of the vector can be clocked, those of its first chunk can, and they sample the same (R203). -/
theorem firstChunk_clocked {s u : State} {n : Nat} {tms tdi : List Byte} {bits : Bits}
    (hu : clockAll s.mmioPoint (vectorOf n tms tdi) s = .ok bits u) :
    ∃ new v, clockAll s.mmioPoint ((vectorOf n tms tdi).take (min 32 n)) s = .ok new v ∧
      clockAll (s.firstChunk n tms tdi).mmioPoint (s.firstChunk n tms tdi).mmio.chunkCycles (s.firstChunk n tms tdi) =
        .ok new (((s.firstChunk n tms tdi).setDraws v.draws).setTarget v.target) := by
  rw [← List.take_append_drop (min 32 n) (vectorOf n tms tdi)] at hu
  obtain ⟨new, v, -, hv, -, -⟩ := clockAll_append_ok hu
  have wire : SameWire s.mmioPoint s (s.firstChunk n tms tdi).mmioPoint (s.firstChunk n tms tdi) := ⟨rfl, rfl, rfl⟩
  exact ⟨new, v, hv, firstChunk_chunkCycles s n tms tdi ▸ wire.clockAll hv⟩

/-- The chunk loop is where it begins. -/
theorem Chunking.start {s : State} (n : Nat) (tms tdi : List Byte) (hb : s.mmio.busy = false) :
    Chunking s n tms tdi true 0 (s.loopStart n) :=
  { clocked := ⟨[], s, rfl, rfl, rfl, captured_nil n⟩
    p_le := Nat.zero_le _, left := rfl, place := fun _ => ⟨rfl, rfl⟩, idle := hb, clkdiv := rfl, delay := rfl
    synced := nofun, last := nofun, cfg := rfl, handle := rfl, env := rfl, pace := Nat.le_refl _, usb := rfl
    usbHost := rfl }

/-- A chunk whose poll ended is read back (R197). -/
theorem Running.chunkDone {s4 s5 u : State} {bits : Bits} (h : Running s4 s4.mmio.length.toNat false s5)
    (hh : ∃ i, s4.handle = some (.mmio i)) (hpace : s5.env.pace.length ≤ s4.env.pace.length)
    (hu : clockAll s4.mmioPoint s4.mmio.chunkCycles s4 = .ok bits u) :
    mmioTdo s5 = .ok s5.mmio.tdo s5 ∧ ChunkDone s4 bits u s5 := by
  obtain ⟨hidle, -⟩ := h.mmio
  obtain ⟨hcfg, hhandle, henv⟩ := h.frame
  refine ⟨mmioTdo_eq_ok.2 ⟨hhandle ▸ hh, hidle, rfl, rfl⟩, ?_⟩
  obtain ⟨bits', u', pace, reads, hu', e⟩ := h.state
  rw [List.take_of_length_le (by rw [Mmio.chunkCycles_length]), hu] at hu'
  cases hu'
  have eu := (clockAll_eq_ok hu).1
  exact ⟨by rw [e]; rfl, by rw [e]; rfl, by rw [e]; rfl, by rw [e, eu]; rfl, by rw [e, eu]; rfl, hcfg, hhandle, henv, hpace,
    by rw [e, eu]; rfl, by rw [e, eu]; rfl⟩

/-- The first round elides no write (R194). -/
theorem chunkWrite_of_first {s : State} {same : Bool} {f : Mmio → Mmio} {g : Shadow → Shadow}
    (hh : ∃ i, s.handle = some (.mmio i)) (hb : s.mmio.busy = false) :
    chunkWrite true same f g s = .ok () ((s.setMmio (f s.mmio)).setShadow (g s.shadow)) :=
  chunkWrite_eq_ok hh hb fun h => absurd h Bool.noConfusion

/-- The first round writes all three operands and gives the strobe (R194, R195). -/
theorem chunkWrites_of_first {s : State} (hh : ∃ i, s.handle = some (.mmio i)) (hb : s.mmio.busy = false)
    {l t d : Word} (hl : 1 ≤ l.toNat ∧ l.toNat ≤ 32) :
    ((chunkWrite true (decide (l = s.shadow.len)) (fun m => { m with length := l }) (fun x => { x with len := l }) s).bind
      fun _ s1 => (chunkWrite true (decide (t = s1.shadow.tms)) (fun m => { m with tms := t })
        (fun x => { x with tms := t }) s1).bind
      fun _ s2 => (chunkWrite true (decide (d = s2.shadow.tdi)) (fun m => { m with tdi := d })
        (fun x => { x with tdi := d }) s2).bind
      fun _ s3 => mmioStart s3) = .ok () (s.chunkStart l t d) := by
  rw [chunkWrite_of_first, Res.bind_ok, chunkWrite_of_first, Res.bind_ok, chunkWrite_of_first, Res.bind_ok]
  · exact mmioStart_eq_ok.2 ⟨hh, hb, hl, rfl⟩
  all_goals assumption

section
variable {s u : State} {i n : Nat} {tms tdi buf : List Byte} {bits : Bits} (hh : s.handle = some (.mmio i))
  (hb : s.mmio.busy = false) (hn : 0 < n)
include hh hb hn

/-- The first round writes all three operands, starts the chunk and polls it (R193, R194). -/
theorem mmioChunk_of_first : mmioChunk tms tdi true (s.loopStart n) =
    (busyPoll s.env.pace 0 (s.firstChunk n tms tdi)).bind fun _ t => (mmioTdo t).bind fun w v =>
      .ok () (v.setHost { v.host with
        tdoBuf := setBytes v.host.tdoBuf 0
          ((List.range (bytesFor (min 32 n))).map (wordByte (alignCapture w (min 32 n))))
        byteIdx := 0 + bytesFor (min 32 n)
        bitsLeft := v.host.bitsLeft - min 32 n }) := by
  have hlength : 1 ≤ (BitVec.ofNat 32 (min 32 n)).toNat ∧ (BitVec.ofNat 32 (min 32 n)).toNat ≤ 32 := by
    rw [toNat_ofNat_of_le (Nat.min_le_left _ _)]
    omega
  have writes := chunkWrites_of_first (s := s.loopStart n) ⟨i, hh⟩ hb (t := chunkWord tms 0 (bytesFor (min 32 n)))
    (d := chunkWord tdi 0 (bytesFor (min 32 n))) hlength
  obtain ⟨_, s1, w1, writes⟩ := Res.bind_eq_ok.1 writes
  obtain ⟨_, s2, w2, writes⟩ := Res.bind_eq_ok.1 writes
  obtain ⟨_, s3, w3, w4⟩ := Res.bind_eq_ok.1 writes
  have hplace : (s.loopStart n).host.byteIdx = 0 := rfl
  have hleft : min chunkBits (s.loopStart n).host.bitsLeft = min 32 n := rfl
  unfold mmioChunk
  simp only [hleft, hplace]
  rw [w1, Res.bind_ok, w2, Res.bind_ok, w3, Res.bind_ok, w4, Res.bind_ok]
  rfl

omit hh hb in
theorem mmioLoop_of_first : mmioLoop tms tdi (chunksFor n) true (s.loopStart n) =
    (mmioChunk tms tdi true (s.loopStart n)).bind fun _ t => mmioLoop tms tdi (chunksFor n - 1) false t := by
  have more : (s.loopStart n).host.bitsLeft ≠ 0 := Nat.ne_of_gt hn
  obtain ⟨k, hk⟩ : ∃ k, chunksFor n = k + 1 := ⟨chunksFor n - 1, by rw [chunksFor]; omega⟩
  rw [hk, mmioLoop, if_neg more]
  rfl

/-- A first poll that times out ends the shift (R204, R320). -/
theorem mmioShift_timesOut (e : busyPoll s.env.pace 0 (s.firstChunk n tms tdi) = .fault .transportTimeout) :
    mmioShift n tms tdi s = .fault .transportTimeout := by
  have loop : mmioLoop tms tdi (chunksFor n) true (s.loopStart n) = .fault .transportTimeout := by
    rw [mmioLoop_of_first hn, mmioChunk_of_first hh hb hn, e, Res.bind_fault, Res.bind_fault]
  rw [mmioShift]
  exact congrArg (Res.bind · _) loop

variable (hmask : s.cfg.statusBusy ≠ 0) (halive : s.env.engineAlive = true) (hmax : n ≤ 32)
  (hu : clockAll s.mmioPoint (vectorOf n tms tdi) s = .ok bits u)
  (hbelow : busyReads s.env.pace (n + 1) < s.cfg.pollLimit)
include hmask halive hmax hu hbelow

/-- The only round of a short shift, polled within its bound, captures all its cycles (R193, R204). -/
theorem mmioChunk_completes_of_busyReads :
    ∃ t, mmioChunk tms tdi true (s.loopStart n) = .ok () t ∧ Chunking s n tms tdi false n t ∧
      t.statusReads = s.statusReads + busyReads s.env.pace (n + 1) + 1 := by
  have hlen : min 32 n = n := Nat.min_eq_right hmax
  have hmoves : movesLeft (s.firstChunk n tms tdi) 0 true = n + 1 := by rw [movesLeft_firstChunk, hlen]
  obtain ⟨new, v, hv, hchunk⟩ := firstChunk_clocked hu
  obtain ⟨s5, epoll, h5, hpace, hreads⟩ := (Running.firstChunk s n tms tdi).poll_completes_of_busyReads
    (firstChunk_handle hh) hmask ⟨_, _, hchunk⟩ s.env.pace 0 halive rfl
    (by rw [hmoves]; exact (Nat.zero_add _).trans_lt hbelow)
  obtain ⟨etdo, hd⟩ := h5.chunkDone (firstChunk_handle hh) hpace hchunk
  have hplace : s5.host.byteIdx = 0 := congrArg HostSeq.byteIdx hd.host
  refine ⟨s5.putWord (min 32 n), ?round, ?captured, hmoves ▸ hreads⟩
  case round => rw [mmioChunk_of_first hh hb hn, epoll, Res.bind_ok, etdo, Res.bind_ok, State.putWord, hplace]
  case captured =>
    have hnew : new.length = min 32 n := by
      rw [(clockAll_eq_ok hv).2, List.length_take, vectorOf_length, hlen, Nat.min_self]
    have hend := (Chunking.start n tms tdi hb).putWord hn rfl (bits := []) (by rw [Nat.zero_add]; exact hv) rfl hnew
      (captured_nil n) hd
    rw [Nat.zero_add, Nat.sub_zero, hlen] at hend
    rw [hlen]
    exact hend

/-- A shift of one chunk whose poll stays below its bound completes (R193, R203, R204). -/
theorem mmioShift_completes_of_busyReads :
    ∃ t, mmioShift n tms tdi s = .ok (packBits bits) t ∧ t.target = u.target ∧
      t.statusReads = s.statusReads + busyReads s.env.pace (n + 1) + 1 := by
  obtain ⟨t, round, hend, hreads⟩ := mmioChunk_completes_of_busyReads hh hb hn hmask halive hmax hu hbelow
  obtain ⟨bits', u', hu', htarget, -, hcap⟩ := hend.clocked
  rw [List.take_of_length_le (by rw [vectorOf_length]), hu] at hu'
  cases hu'
  have loop : mmioLoop tms tdi (chunksFor n) true (s.loopStart n) = .ok () t := by
    have hlast : chunksFor n - 1 = 0 := by rw [chunksFor]; omega
    rw [mmioLoop_of_first hn, round, Res.bind_ok, hlast, mmioLoop]
  refine ⟨t.setHost HostSeq.idle, ?_, htarget, hreads⟩
  rw [mmioShift]
  refine (congrArg (Res.bind · _) loop).trans ?_
  rw [Res.bind_ok, hcap.eq_packBits (by rw [(clockAll_eq_ok hu).2, vectorOf_length])]

end

/-! ### T.SHIFT under a bound -/

section
variable {s u : State} {i n : Nat} {buf : List Byte} {bits : Bits} (hh : s.handle = some (.mmio i))
  (hb : s.mmio.busy = false) (hn : 0 < n) (hbuf : buf.length = 2 * bytesFor n)
include hh hb hn hbuf

/-- A first poll that times out is the shift's only outcome (R320). -/
theorem exec_tShift_timesOut
    (e : busyPoll s.env.pace 0 (s.firstChunk n (buf.take (bytesFor n)) (buf.drop (bytesFor n))) =
      .fault .transportTimeout) : exec (.tShift n buf) s = .fault .transportTimeout :=
  congrArg (Res.out · giveCapture) ((shift_of_mmio hh hn hbuf).trans (mmioShift_timesOut hh hb hn e))

/-- A sequencer that never moves (R350) times the shift out. -/
theorem exec_tShift_timesOut_of_unresponsive (halive : s.env.engineAlive = false) (hpace : s.env.pace = [])
    (hlimit : 0 < s.cfg.pollLimit) : exec (.tShift n buf) s = .fault .transportTimeout := by
  refine exec_tShift_timesOut hh hb hn hbuf ?_
  rw [hpace]
  exact busyPoll_of_unresponsive (s := s.firstChunk n _ _) halive hlimit 0

variable (hmask : s.cfg.statusBusy ≠ 0)
  (hu : clockAll s.mmioPoint (vectorOf n (buf.take (bytesFor n)) (buf.drop (bytesFor n))) s = .ok bits u)
include hmask hu

/-- So does one that stops before the end of the first chunk. -/
theorem exec_tShift_timesOut_of_unfinished (halive : s.env.engineAlive = false) (hlimit : 0 < s.cfg.pollLimit)
    (hsum : s.env.pace.sum ≤ min 32 n) : exec (.tShift n buf) s = .fault .transportTimeout := by
  obtain ⟨_, _, -, hchunk⟩ := firstChunk_clocked hu
  refine exec_tShift_timesOut hh hb hn hbuf ?_
  refine (Running.firstChunk s n _ _).poll_timesOut_of_unfinished (firstChunk_handle hh) hmask ⟨_, _, hchunk⟩ _ 0
    halive hlimit ?_
  rw [movesLeft_firstChunk]
  omega

/-- So does one too slow for the bound. -/
theorem exec_tShift_timesOut_of_busyReads (hlimit : 0 < s.cfg.pollLimit)
    (hreach : s.cfg.pollLimit ≤ busyReads s.env.pace (min 32 n + 1)) :
    exec (.tShift n buf) s = .fault .transportTimeout := by
  obtain ⟨_, _, -, hchunk⟩ := firstChunk_clocked hu
  refine exec_tShift_timesOut hh hb hn hbuf ?_
  refine (Running.firstChunk s n _ _).poll_timesOut_of_busyReads (firstChunk_handle hh) hmask ⟨_, _, hchunk⟩ _ 0
    hlimit ?_
  rw [movesLeft_firstChunk, Nat.zero_add]
  exact hreach

end

end Sys2Proof.Machine
end

section
/-! ## No fatal error without a bound (O35)

With POLL_LIMIT 0 the busy-poll never raises TransportTimeout, and nothing else does: no part of an operation but a
construction ends in a fatal error (R204, R316). -/

namespace Sys2Proof.Machine

/-- A part of an operation ends in no fatal error, and leaves the configuration at `c` where it goes on. -/
def Res.NoFault {α : Type} (c : Config) : Res α → Prop
  | .ok _ t => t.cfg = c
  | .stuck _ => True
  | .fault _ => False
  | .refused _ => True

section
variable {α β : Type} {c : Config}

theorem Res.NoFault.bind {x : Res α} {f : α → State → Res β} (h : x.NoFault c)
    (k : ∀ a t, t.cfg = c → (f a t).NoFault t.cfg) : (x.bind f).NoFault c := by
  cases x with
  | ok a t => exact (show t.cfg = c from h) ▸ k a t h
  | stuck t => exact h
  | fault e => exact h
  | refused r => exact h

theorem Res.NoFault.ite {p : Prop} [Decidable p] {x y : Res α} (h : x.NoFault c) (k : y.NoFault c) :
    (if p then x else y).NoFault c := by
  split
  · exact h
  · exact k

theorem Res.NoFault.out {x : Res α} {g : α → State → State} (h : x.NoFault c) :
    x.out g ≠ .fault .transportTimeout := by
  cases x with
  | ok a t => nofun
  | stuck t => nofun
  | fault e => exact h.elim
  | refused r => nofun

end

/-! ### The handle and the target -/

theorem needHandle_noFault (s : State) : (needHandle s).NoFault s.cfg := by
  unfold needHandle; split <;> trivial

theorem needMmio_noFault (s : State) : (needMmio s).NoFault s.cfg := by
  unfold needMmio; split <;> trivial

theorem needUsb_noFault (s : State) : (needUsb s).NoFault s.cfg := by
  unfold needUsb; split <;> trivial

theorem needIdentity_noFault (s : State) : (needIdentity s).NoFault s.cfg := by
  unfold needIdentity; split <;> trivial

theorem needTarget_noFault (s : State) : (needTarget s).NoFault s.cfg :=
  (needHandle_noFault s).bind fun _ _ _ => .ite trivial rfl

theorem clock_noFault (pt : Nat × Nat) (tms tdi : Bool) (s : State) : (clock pt tms tdi s).NoFault s.cfg := by
  refine .ite ?_ rfl
  split
  · rfl
  · split <;> trivial

theorem clockAll_noFault (pt : Nat × Nat) (v : List (Bool × Bool)) (s : State) : (clockAll pt v s).NoFault s.cfg := by
  induction v generalizing s with
  | nil => rfl
  | cons c v ih => exact (clock_noFault pt c.1 c.2 s).bind fun _ t _ => (ih t).bind fun _ _ _ => rfl

theorem tckIn_noFault (x : TapState) (tms tdi : Bool) (s : State) : (tckIn x tms tdi s).NoFault s.cfg := by
  refine (needTarget_noFault s).bind fun _ t _ => ?_
  split
  · trivial
  · refine .ite ?_ trivial
    split <;> trivial

theorem latchCode_noFault (f : TapParams → Bits) (s : State) : (latchCode f s).NoFault s.cfg := by
  refine (needTarget_noFault s).bind fun _ t _ => ?_
  split <;> trivial

/-! ### The MMIO side -/

theorem engineTick_noFault (s : State) : (engineTick s).NoFault s.cfg :=
  .ite ((clock_noFault _ _ _ s).bind fun _ _ _ => rfl) rfl

theorem engineTicks_noFault (k : Nat) (s : State) : (engineTicks k s).NoFault s.cfg := by
  induction k generalizing s with
  | zero => rfl
  | succ k ih => exact .ite ((engineTick_noFault s).bind fun _ t _ => ih t) rfl

theorem mmioWrite_noFault (f : Mmio → Mmio) (s : State) : (mmioWrite f s).NoFault s.cfg :=
  (needMmio_noFault s).bind fun _ _ _ => .ite trivial rfl

theorem mmioWriteIn_noFault (max : Nat) (v : Word) (f : Mmio → Mmio) (s : State) :
    (mmioWriteIn max v f s).NoFault s.cfg :=
  (needMmio_noFault s).bind fun _ _ _ => .ite trivial (.ite rfl rfl)

theorem mmioStart_noFault (s : State) : (mmioStart s).NoFault s.cfg :=
  (needMmio_noFault s).bind fun _ _ _ => .ite trivial (.ite rfl trivial)

theorem mmioStatus_noFault (s : State) : (mmioStatus s).NoFault s.cfg :=
  (needMmio_noFault s).bind fun _ _ _ => rfl

theorem mmioTdo_noFault (s : State) : (mmioTdo s).NoFault s.cfg :=
  (needMmio_noFault s).bind fun _ _ _ => .ite trivial rfl

/-- Without a bound the poll goes on, or hangs (R204, R350). -/
theorem busyPoll_noFault (pace : List Nat) (polls : Nat) {s : State} (h0 : s.cfg.pollLimit = 0) :
    (busyPoll pace polls s).NoFault s.cfg := by
  induction pace generalizing polls s with
  | nil =>
    rw [busyPoll, h0, if_neg (Nat.lt_irrefl 0)]
    exact .ite ((engineTicks_noFault _ s).bind fun _ t _ => (mmioStatus_noFault t).bind fun _ _ _ => rfl) trivial
  | cons k rest ih =>
    rw [busyPoll]
    refine (engineTicks_noFault k (s.setEnv _)).bind fun _ t ht => (mmioStatus_noFault t).bind fun _ u hu => .ite ?_ rfl
    have hu0 : u.cfg.pollLimit = 0 := (congrArg Config.pollLimit (hu.trans ht)).trans h0
    rw [if_neg (by omega)]
    exact ih _ hu0

theorem chunkWrite_noFault (first same : Bool) (f : Mmio → Mmio) (g : Shadow → Shadow) (s : State) :
    (chunkWrite first same f g s).NoFault s.cfg :=
  .ite rfl ((mmioWrite_noFault f s).bind fun _ _ _ => rfl)

theorem mmioChunk_noFault (tms tdi : List Byte) (first : Bool) {s : State} (h0 : s.cfg.pollLimit = 0) :
    (mmioChunk tms tdi first s).NoFault s.cfg :=
  (chunkWrite_noFault _ _ _ _ s).bind fun _ s1 h1 =>
  (chunkWrite_noFault _ _ _ _ s1).bind fun _ s2 h2 =>
  (chunkWrite_noFault _ _ _ _ s2).bind fun _ s3 h3 =>
  (mmioStart_noFault s3).bind fun _ s4 h4 =>
  (busyPoll_noFault _ _ (by rw [h4, h3, h2, h1, h0])).bind fun _ s5 _ =>
  (mmioTdo_noFault s5).bind fun _ _ _ => rfl

theorem mmioLoop_noFault (tms tdi : List Byte) (fuel : Nat) (first : Bool) {s : State} (h0 : s.cfg.pollLimit = 0) :
    (mmioLoop tms tdi fuel first s).NoFault s.cfg := by
  induction fuel generalizing first s with
  | zero => rfl
  | succ fuel ih =>
    exact .ite rfl ((mmioChunk_noFault tms tdi first h0).bind fun _ t ht => ih false (ht ▸ h0))

theorem mmioShift_noFault (n : Nat) (tms tdi : List Byte) {s : State} (h0 : s.cfg.pollLimit = 0) :
    (mmioShift n tms tdi s).NoFault s.cfg :=
  (mmioLoop_noFault tms tdi _ _ (s := s.loopStart n) h0).bind fun _ _ _ => rfl

/-! ### The USB side -/

theorem adapterByteShift_noFault (e : Bool) (d : List Byte) (s : State) : (adapterByteShift e d s).NoFault s.cfg := by
  induction d generalizing s with
  | nil => rfl
  | cons x d ih =>
    have first : (adapterByte e x s).NoFault s.cfg := (clockAll_noFault _ _ s).bind fun _ _ _ => rfl
    exact first.bind fun _ t _ => ih t

theorem adapterBitShift_noFault (e : Bool) (r : Nat) (d : Byte) (s : State) : (adapterBitShift e r d s).NoFault s.cfg :=
  (clockAll_noFault _ _ s).bind fun _ _ _ => rfl

theorem adapterTmsShift_noFault (e : Bool) (r : Nat) (b : Byte) (s : State) : (adapterTmsShift e r b s).NoFault s.cfg :=
  (clockAll_noFault _ _ s).bind fun _ _ _ => rfl

theorem adapterExec_noFault (i : Instr) (s : State) : (adapterExec i s).NoFault s.cfg := by
  unfold adapterExec
  split
  · exact adapterByteShift_noFault _ _ s
  · exact adapterBitShift_noFault _ _ _ s
  · exact adapterTmsShift_noFault _ _ _ s
  · rfl
  · trivial

theorem adapterRun_noFault (fuel : Nat) (s : State) : (adapterRun fuel s).NoFault s.cfg := by
  induction fuel generalizing s with
  | zero => rfl
  | succ fuel ih =>
    unfold adapterRun
    split
    · rfl
    · trivial
    · exact (adapterExec_noFault _ (s.setUsb _)).bind fun _ t _ => ih t

theorem usbAccept_noFault (s : State) : (usbAccept s).NoFault s.cfg := by
  unfold usbAccept; split <;> trivial

theorem usbWrite_noFault (bytes : List Byte) (s : State) : (usbWrite bytes s).NoFault s.cfg :=
  (usbAccept_noFault s).bind fun _ t _ => adapterRun_noFault _ (t.setUsb _)

theorem usbRead_noFault (deliveries : List Transfer) (k : Nat) (got : List Byte) (s : State) :
    (usbRead deliveries k got s).NoFault s.cfg := by
  induction deliveries generalizing k got s with
  | nil => exact .ite rfl trivial
  | cons d rest ih =>
    cases d with
    | error => trivial
    | bytes d => exact .ite rfl (ih _ _ ((s.setUsb _).setEnv _))

theorem usbFlush_noFault (s : State) : (usbFlush s).NoFault s.cfg :=
  .ite rfl ((usbWrite_noFault _ (s.setUsbHost _)).bind fun _ t _ => (usbRead_noFault _ _ _ t).bind fun _ _ _ => rfl)

theorem usbEmit_noFault (bytes : List Byte) (ds : List Descriptor) (s : State) : (usbEmit bytes ds s).NoFault s.cfg :=
  Res.NoFault.bind (.ite (usbFlush_noFault (s.setUsbHost _)) rfl) fun _ _ _ => rfl

theorem byteArm_noFault (i : Nat) (d : Byte) (s : State) : (byteArm i d s).NoFault s.cfg := by
  unfold byteArm
  split
  · rfl
  · exact Res.NoFault.bind (.ite (usbFlush_noFault s) rfl) fun _ _ _ => rfl

theorem tmsArm_noFault (i : Nat) (m d : Byte) (bits : List Nat) (s : State) : (tmsArm i m d bits s).NoFault s.cfg := by
  induction bits generalizing s with
  | nil => rfl
  | cons b bits ih => exact (usbEmit_noFault _ _ s).bind fun _ t _ => ih (t.setUsbHost _)

theorem usbByte_noFault (n : Nat) (tms tdi : List Byte) (s : State) : (usbByte n tms tdi s).NoFault s.cfg :=
  (Res.NoFault.ite (byteArm_noFault _ _ s) (.ite (usbEmit_noFault _ _ s) (tmsArm_noFault _ _ _ _ s))).bind
    fun _ _ _ => rfl

theorem usbLoop_noFault (n : Nat) (tms tdi : List Byte) (fuel : Nat) (s : State) :
    (usbLoop n tms tdi fuel s).NoFault s.cfg := by
  induction fuel generalizing s with
  | zero => rfl
  | succ fuel ih => exact .ite ((usbByte_noFault n tms tdi s).bind fun _ t _ => ih t) rfl

theorem usbShift_noFault (n : Nat) (tms tdi : List Byte) (s : State) : (usbShift n tms tdi s).NoFault s.cfg :=
  (usbLoop_noFault n tms tdi _ ((s.setUsbHost _).setHost _)).bind fun _ t _ =>
    (usbFlush_noFault t).bind fun _ _ _ => rfl

/-! ### Operations of the contract and probes -/

theorem openTransport_ne_timeout (p : OpenParams) (s : State) :
    (openTransport p s).out giveDone ≠ .fault .transportTimeout := by
  unfold openTransport
  split
  · nofun
  · split <;> nofun

theorem setClockDivisor_noFault (v : Int) (s : State) : (setClockDivisor v s).NoFault s.cfg := by
  refine (needHandle_noFault s).bind fun h t _ => ?_
  cases h with
  | mmio i => exact .ite rfl (mmioWrite_noFault _ t)
  | usb a => exact usbWrite_noFault _ (t.setUsb _)

theorem setTimingParam_noFault (v : Int) (s : State) : (setTimingParam v s).NoFault s.cfg := by
  refine (needHandle_noFault s).bind fun h t _ => ?_
  cases h with
  | mmio i => exact .ite rfl (mmioWrite_noFault _ t)
  | usb a => rfl

section
variable {s : State} (h0 : s.cfg.pollLimit = 0)
include h0

theorem shift_noFault (n : Int) (buf : List Byte) : (shift n buf s).NoFault s.cfg := by
  refine (needHandle_noFault s).bind fun h t ht => .ite trivial (.ite rfl ?_)
  cases h with
  | mmio i => exact mmioShift_noFault _ _ _ (ht ▸ h0)
  | usb a => exact usbShift_noFault _ _ _ t

theorem scanChain_noFault : (scanChain s).NoFault s.cfg :=
  (shift_noFault h0 _ _).bind fun _ _ _ => rfl

theorem probeIdcode_noFault : (probeIdcode s).NoFault s.cfg :=
  (needHandle_noFault s).bind fun _ s1 h1 =>
  (needIdentity_noFault s1).bind fun _ _ h2 =>
  (shift_noFault (by rw [h2, h1, h0]) _ _).bind fun _ _ _ => rfl

theorem probeBypassVec_noFault (values : List Word) : (probeBypassVec values s).NoFault s.cfg :=
  (needHandle_noFault s).bind fun _ s1 h1 =>
  (needIdentity_noFault s1).bind fun _ _ h2 =>
  .ite trivial ((shift_noFault (by rw [h2, h1, h0]) _ _).bind fun _ _ h3 =>
    (shift_noFault (by rw [h3, h2, h1, h0]) _ _).bind fun _ _ _ => rfl)

theorem detectSweep_noFault (tps : List Nat) : (detectSweep tps s).NoFault s.cfg := by
  induction tps generalizing s with
  | nil => rfl
  | cons tp rest ih =>
    refine (setTimingParam_noFault tp s).bind fun _ s1 h1 => ?_
    have h10 : s1.cfg.pollLimit = 0 := by rw [h1, h0]
    refine (scanChain_noFault h10).bind fun _ s2 h2 => ?_
    split
    · rfl
    · exact ih (by rw [h2, h10])

theorem detect_noFault : (detect s).NoFault s.cfg := by
  refine (needHandle_noFault s).bind fun _ s1 h1 => ?_
  split
  · rfl
  · exact (setClockDivisor_noFault _ s1).bind fun _ s2 h2 => detectSweep_noFault (by rw [h2, h1, h0]) _

/-! ### Every operation -/

/-- Without a bound no operation ends in TransportTimeout (R316). -/
theorem exec_ne_timeout (i : Instr) : exec i s ≠ .fault .transportTimeout := by
  have ofUsb {f : State → Res Unit} (h : ∀ t, (f t).NoFault t.cfg) :
      ((needUsb s).bind fun _ t => f t).out giveSent ≠ .fault .transportTimeout :=
    ((needUsb_noFault s).bind fun _ t _ => h t).out
  cases i
  case tOpen p => exact openTransport_ne_timeout p s
  case tShift n buf => exact (shift_noFault h0 n buf).out
  case tSetClockDivisor v => exact (setClockDivisor_noFault v s).out
  case tSetTimingParam v => exact (setTimingParam_noFault v s).out
  case jIdcode | jBypass => exact (latchCode_noFault _ s).out
  case mWrLength v | mWrTms v | mWrTdi v => exact (mmioWrite_noFault _ s).out
  case mWrStart => exact (mmioStart_noFault s).out
  case mRdStatus => exact (mmioStatus_noFault s).out
  case mRdTdo => exact (mmioTdo_noFault s).out
  case mWrClkdiv v | mWrDelay v => exact (mmioWriteIn_noFault _ v _ s).out
  case uByteShift e d => exact ofUsb (adapterByteShift_noFault e d)
  case uBitShift e r d => exact ofUsb (adapterBitShift_noFault e r d)
  case uTmsShift e r b => exact ofUsb fun t => adapterTmsShift_noFault e r b (t.setUsbHost _)
  case uSetDivisor div => exact ofUsb fun _ => rfl
  case uFlush => exact ofUsb usbFlush_noFault
  case pProbeIdcode => exact (probeIdcode_noFault h0).out
  case pScanChain => exact (scanChain_noFault h0).out
  case pDetect => exact (detect_noFault h0).out
  case pProbeBypass v => exact (probeBypassVec_noFault h0 [v]).out
  case pProbeBypassVec vs => exact (probeBypassVec_noFault h0 vs).out
  all_goals exact (tckIn_noFault _ _ _ s).out

end

/-- Settles O35: the first poll of a shift raises the error or ends in time by the busy reads it makes, and nothing but a
bounded poll raises it. -/
theorem pollLimitRaisesTimeout : Obligations.PollLimitRaisesTimeout := by
  refine ⟨fun s i n buf hh hb halive hpace hlimit hn hbuf => ?unresponsive,
    fun s u i n buf bits hh hb hmask hlimit hn hbuf hu =>
      ⟨fun halive hsum => ?unfinished, fun _ hmax hreach => ?slow, fun halive hmax hbelow => ?inTime⟩,
    fun i s h0 => exec_ne_timeout h0 i⟩
  case unresponsive => exact exec_tShift_timesOut_of_unresponsive hh hb hn hbuf halive hpace hlimit
  case unfinished => exact exec_tShift_timesOut_of_unfinished hh hb hn hbuf hmask hu halive hlimit hsum
  case slow =>
    rw [← Nat.min_eq_right hmax] at hreach
    exact exec_tShift_timesOut_of_busyReads hh hb hn hbuf hmask hu hlimit hreach
  case inTime =>
    obtain ⟨t, e, htarget, hreads⟩ := mmioShift_completes_of_busyReads hh hb hn hmask halive hmax hu hbelow
    exact ⟨giveCapture (packBits bits) t, congrArg (Res.out · giveCapture) ((shift_of_mmio hh hn hbuf).trans e), rfl,
      htarget, hreads⟩

end Sys2Proof.Machine
end

section
/-! ## Hosts that wait for ever, and transfers that fail (O33, O34, O48)

The two untimed waits of R350 and R351 are next states that no step leaves. For USB the shift is compared with the same
shift of an adapter that answers: up to the first transfer that does not go through both do the same, and that one ends
the shift. -/

namespace Sys2Proof

/-- Bytes taken as a read of another register are no operation of the table (U37). -/
theorem decode_of_decodeReadBack {c : Config} {bs rest : List Byte} (h : decodeReadBack c bs = some rest) :
    decode c bs = .bad .readBack := by
  cases bs with
  | nil => cases h
  | cons tag bs =>
    have access : decodeTagged c tagMmio bs = decodeAccessCall c bs := by
      simp [decodeTagged, tagMmio, tagOpen, tagShift, tagSetDiv, tagSetTiming, tagTck, tagIdcode, tagBypass]
    obtain ⟨rfl, hread⟩ := (Option.ite_none_right_eq_some ..).1 h
    split at hread
    · cases hread
    · obtain ⟨hb, -⟩ := (Option.ite_none_right_eq_some ..).1 hread
      rw [decode, access, hb]
      rfl

namespace Machine

/-! ### Steps that wait (O48) -/

/-- A host stuck in a wait stays there (R350, R351). -/
theorem step_of_stuck {s : State} (h : s.host.phase = .stuckBusyPoll ∨ s.host.phase = .stuckRead) : step s = .next s := by
  obtain h | h := h <;> simp only [step, h]

/-- With no call at the head of its bytes the host waits (log entry 1). -/
theorem hostTurn_of_noCall {s : State} (h : s.calls = [] ∨ decode s.cfg s.calls = .incomplete) : hostTurn s = .next s := by
  have idle : fetchCall s = .idle := by
    unfold fetchCall
    cases hc : s.calls with
    | nil => rfl
    | cons b bs =>
      have hd : decode s.cfg (b :: bs) = .incomplete := by simpa [hc] using h
      have hr : decodeReadBack s.cfg (b :: bs) = none :=
        Option.eq_none_iff_forall_ne_some.2 fun rest hr => by cases hd.symm.trans (decode_of_decodeReadBack hr)
      simp only [hr, hd]
  simp only [hostTurn, idle]

/-- Settles O48. -/
theorem stepWaitsWhenStuckOrIdle : Obligations.StepWaitsWhenStuckOrIdle :=
  ⟨fun _ => step_of_stuck, fun _ hp hb hq h => (step_of_ready hp (deviceTurn_of_idle hb hq)).trans (hostTurn_of_noCall h)⟩

/-! ### The busy-poll that never ends (O33) -/

/-- Without a bound an unresponsive sequencer leaves the host stuck in the poll (R350). -/
theorem busyPoll_hangs {s : State} (halive : s.env.engineAlive = false) (h0 : s.cfg.pollLimit = 0) (polls : Nat) :
    busyPoll [] polls s = .stuck (s.setHost { s.host with phase := .stuckBusyPoll }) := by
  rw [busyPoll, halive, if_neg Bool.false_ne_true, if_neg (by omega)]

/-- A first poll that leaves the host stuck is where the shift ends. -/
theorem mmioShift_hangs {s t : State} {i n : Nat} {tms tdi : List Byte} (hh : s.handle = some (.mmio i))
    (hb : s.mmio.busy = false) (hn : 0 < n) (e : busyPoll s.env.pace 0 (s.firstChunk n tms tdi) = .stuck t) :
    mmioShift n tms tdi s = .stuck t := by
  have loop : mmioLoop tms tdi (chunksFor n) true (s.loopStart n) = .stuck t := by
    rw [mmioLoop_of_first hn, mmioChunk_of_first hh hb hn, e, Res.bind_stuck, Res.bind_stuck]
  rw [mmioShift]
  exact congrArg (Res.bind · _) loop

/-- Settles O33: the first chunk is started, and its poll never ends. -/
theorem unresponsiveSequencerHangsTheHost : Obligations.UnresponsiveSequencerHangsTheHost := by
  intro s i n buf hh hb halive hpace h0 hn hbuf
  have poll := busyPoll_hangs (s := s.firstChunk n (buf.take (bytesFor n)) (buf.drop (bytesFor n))) halive h0 0
  rw [← hpace] at poll
  have shifted := (shift_of_mmio hh hn hbuf).trans (mmioShift_hangs hh hb hn poll)
  exact ⟨_, congrArg (Res.out · giveCapture) shifted, rfl, rfl, rfl, rfl, step_of_stuck (.inl rfl)⟩

end Machine
end Sys2Proof
end

section
namespace Sys2Proof.Machine

/-! ### A run against a reference -/

section
variable {α β : Type} {E : Host.Outcome State Fault Refusal → Prop} {Rel : State → State → Prop}

/-- A part of an operation goes no further, and the operation ends as `E` says. -/
def Res.BreaksOff (E : Host.Outcome State Fault Refusal → Prop) : Res α → Prop
  | .ok _ _ => False
  | .stuck t => E (.next t)
  | .fault f => E (.fault f)
  | .refused r => E (.refused r)

/-- Where the reference `y` goes on, `x` goes on with the same value and a related state, or it breaks off. -/
def Res.Follows (E : Host.Outcome State Fault Refusal → Prop) (Rel : State → State → Prop) (x y : Res α) : Prop :=
  ∀ a u, y = .ok a u → (∃ t, x = .ok a t ∧ Rel t u) ∨ x.BreaksOff E

theorem Res.BreaksOff.bind {x : Res α} (h : x.BreaksOff E) (f : α → State → Res β) : (x.bind f).BreaksOff E := by
  cases x with
  | ok a t => exact h.elim
  | stuck t => exact h
  | fault e => exact h
  | refused r => exact h

theorem Res.BreaksOff.out {x : Res α} (h : x.BreaksOff E) (g : α → State → State) : E (x.out g) := by
  cases x with
  | ok a t => exact h.elim
  | stuck t => exact h
  | fault e => exact h
  | refused r => exact h

theorem Res.not_breaksOff {x : Res α} : ¬x.BreaksOff fun _ => False := fun h => h.out fun _ t => t

theorem Res.Follows.ok {t u : State} (h : Rel t u) (a : α) : (Res.ok a t).Follows E Rel (.ok a u) := by
  rintro _ _ ⟨⟩
  exact .inl ⟨t, rfl, h⟩

theorem Res.Follows.of_refused (x : Res α) (r : Refusal) : x.Follows E Rel (.refused r) := fun _ _ => nofun

theorem Res.Follows.bind {x y : Res α} {f g : α → State → Res β} (h : x.Follows E Rel y)
    (k : ∀ a t u, Rel t u → (f a t).Follows E Rel (g a u)) : (x.bind f).Follows E Rel (y.bind g) := by
  intro b w e
  obtain ⟨a, u, rfl, eg⟩ := Res.bind_eq_ok.1 e
  obtain ⟨t, rfl, hr⟩ | hx := h a u rfl
  · exact k a t u hr b w eg
  · exact .inr (hx.bind f)

theorem Res.Follows.ite {c : Prop} [Decidable c] {x y x' y' : Res α} (h : x.Follows E Rel y) (k : x'.Follows E Rel y') :
    (if c then x else x').Follows E Rel (if c then y else y') := by
  split
  · exact h
  · exact k

end

/-! ### What the adapter does not look at -/

/-- Another environment, and other bytes already waiting in the response stream. -/
def State.supplied (s : State) (q : List Byte) (e : Env) : State := (s.setUsb { s.usb with rspq := q }).setEnv e

/-- The states differ in the response stream and the environment alone, and the same points are valid. -/
def Resupplied (t u : State) : Prop := ∃ q e, t = u.supplied q e ∧ e.isValid = u.env.isValid

/-- The adapter's work from `t` goes on where the same work from `u` does. -/
abbrev Carries (x y : Res Unit) : Prop := x.Follows (fun _ => False) Resupplied y

/-- Cycles, and then an update of the adapter. -/
theorem carries_clockAll {t u : State} (h : Resupplied t u) (pt : Nat × Nat) (v : List (Bool × Bool))
    {x : Bits → Usb → Usb} (hx : ∀ bits (a : Usb) q, ∃ q', x bits { a with rspq := q } = { x bits a with rspq := q' }) :
    Carries ((clockAll pt v t).bind fun bits t' => .ok () (t'.setUsb (x bits t'.usb)))
      ((clockAll pt v u).bind fun bits u' => .ok () (u'.setUsb (x bits u'.usb))) := by
  obtain ⟨q, e, rfl, hv⟩ := h
  have wire : SameWire pt u pt (u.supplied q e) := ⟨congrFun hv pt, rfl, rfl⟩
  refine Res.Follows.bind (Rel := Resupplied) (fun bits u' hu => .inl ⟨u'.supplied q e, ?_, q, e, rfl, ?_⟩) ?_
  · rw [wire.clockAll hu, (clockAll_eq_ok hu).1]
    rfl
  · rw [hv, (clockAll_eq_ok hu).1]
    rfl
  · rintro bits _ u' ⟨q, e, rfl, hv⟩
    obtain ⟨q', hq'⟩ := hx bits u'.usb q
    refine .ok ⟨q', e, ?_, hv⟩ ()
    exact congrArg (fun a => (u'.setUsb a).setEnv e) hq'

theorem adapterByteShift_carries {t u : State} (h : Resupplied t u) (e : Bool) (d : List Byte) :
    Carries (adapterByteShift e d t) (adapterByteShift e d u) := by
  induction d generalizing t u with
  | nil => exact .ok h ()
  | cons x d ih =>
    refine Res.Follows.bind (Rel := Resupplied) ?_ fun _ _ _ h => ih h
    obtain ⟨q, env, rfl, hv⟩ := h
    exact carries_clockAll ⟨q, env, rfl, hv⟩ (u.usbPoint e) ((byteBits x).map fun b => (u.usb.tms, b))
      (x := fun bits a => { a with rb := byteOfBits bits, rspq := a.rspq ++ [byteOfBits bits] }) fun _ _ _ => ⟨_, rfl⟩

theorem adapterExec_carries {t u : State} (h : Resupplied t u) (i : Instr) :
    Carries (adapterExec i t) (adapterExec i u) := by
  unfold adapterExec
  split
  · exact adapterByteShift_carries h _ _
  · rename_i e r d
    obtain ⟨q, env, rfl, hv⟩ := h
    exact carries_clockAll ⟨q, env, rfl, hv⟩ (u.usbPoint e) (((byteBits d).take r).map fun b => (u.usb.tms, b))
      (x := fun bits a => { a with rb := pushBits a.rb bits, rspq := a.rspq ++ [pushBits a.rb bits] })
      fun _ _ _ => ⟨_, rfl⟩
  · rename_i e r b
    obtain ⟨q, env, rfl, hv⟩ := h
    exact carries_clockAll ⟨q, env, rfl, hv⟩ (u.usbPoint e) (((byteBits b).take r).map fun m => (m, b.getLsbD 7))
      (x := fun bits a => { a with
        tms := b.getLsbD (r - 1), rb := pushBits a.rb bits, rspq := a.rspq ++ [pushBits a.rb bits] })
      fun _ _ _ => ⟨_, rfl⟩
  · obtain ⟨q, env, rfl, hv⟩ := h
    exact .ok ⟨q, env, rfl, hv⟩ ()
  · exact .of_refused _ _

theorem adapterRun_carries (fuel : Nat) {t u : State} (h : Resupplied t u) :
    Carries (adapterRun fuel t) (adapterRun fuel u) := by
  induction fuel generalizing t u with
  | zero => exact .ok h ()
  | succ fuel ih =>
    obtain ⟨q, env, rfl, hv⟩ := h
    have hd : decodeCommand (u.supplied q env).cfg (u.supplied q env).usb.cmdq = decodeCommand u.cfg u.usb.cmdq := rfl
    rw [adapterRun, adapterRun, hd]
    cases decodeCommand u.cfg u.usb.cmdq with
    | incomplete => exact .ok ⟨q, env, rfl, hv⟩ ()
    | bad why => exact .of_refused _ _
    | ok i rest =>
      exact Res.Follows.bind (adapterExec_carries (u := u.setUsb { u.usb with cmdq := rest }) ⟨q, env, rfl, hv⟩ i)
        fun _ _ _ => ih

/-! ### An adapter that answers -/

/-- The same state with an adapter that answers: nothing waits in the response stream, every write is accepted and every
byte asked for is delivered. -/
def State.answered (s : State) : State := s.supplied [] { s.env with delivery := [], usbAlive := true, writes := [] }

theorem usbWrite_of_failing {s : State} (h : s.env.writes.head? = some false) (bytes : List Byte) :
    usbWrite bytes s = .refused .usbTransferError := by
  obtain ⟨rest, hw⟩ := List.head?_eq_some_iff.1 h
  rw [usbWrite, usbAccept, hw]
  rfl

/-- A batch that the adapter takes where it answers, it takes wherever the transfer is accepted. -/
theorem usbWrite_of_answered {s u : State} {bytes : List Byte} (h : usbWrite bytes s.answered = .ok () u)
    (hwrites : s.env.writes.head? ≠ some false) : ∃ t, usbWrite bytes s = .ok () t := by
  have same : Resupplied ((s.setEnv { s.env with writes := s.env.writes.tail }).setUsb
      { s.usb with cmdq := s.usb.cmdq ++ bytes })
      (s.answered.setUsb { s.answered.usb with cmdq := s.usb.cmdq ++ bytes }) :=
    ⟨s.usb.rspq, { s.env with writes := s.env.writes.tail }, rfl, rfl⟩
  obtain ⟨t, e, -⟩ | hx := adapterRun_carries _ same () u h
  · refine ⟨t, ?_⟩
    rw [usbWrite, usbAccept_eq_ok.2 ⟨hwrites, rfl⟩, Res.bind_ok]
    exact e
  · exact (Res.not_breaksOff hx).elim

/-! ### Before the first transfer -/

/-- Since `s0` the host has worked on its batch and its cursors alone. -/
def Untransferred (s0 s : State) : Prop := ∃ x y, s = (s0.setUsbHost x).setHost y

theorem Untransferred.setUsbHost {s0 s : State} (h : Untransferred s0 s) (x : UsbHost) :
    Untransferred s0 (s.setUsbHost x) := by
  obtain ⟨-, y, rfl⟩ := h
  exact ⟨x, y, rfl⟩

theorem Untransferred.setHost {s0 s : State} (h : Untransferred s0 s) (y : HostSeq) : Untransferred s0 (s.setHost y) := by
  obtain ⟨x, -, rfl⟩ := h
  exact ⟨x, y, rfl⟩

/-- `u` is `t` with an adapter that answers, before the first transfer of either. -/
def AnsweredTwin (s0 t u : State) : Prop := Untransferred s0 t ∧ u = t.answered

/-- The next transfers of `s0` do not go through: a flush of any batch that an answering adapter would take ends as `E`
says. -/
def FlushBreaks (E : Host.Outcome State Fault Refusal → Prop) (s0 : State) : Prop :=
  ∀ s u, Untransferred s0 s → s.usbHost.desc ≠ [] → usbFlush s.answered = .ok () u → (usbFlush s).BreaksOff E

section
variable {E : Host.Outcome State Fault Refusal → Prop} {s0 s : State} (hE : FlushBreaks E s0) (h : Untransferred s0 s)
include hE h

theorem usbFlush_follows : (usbFlush s).Follows E (AnsweredTwin s0) (usbFlush s.answered) := by
  by_cases hd : s.usbHost.desc = []
  · rw [usbFlush_of_empty hd, usbFlush_of_empty (s := s.answered) hd]
    exact .ok ⟨h.setUsbHost _, rfl⟩ ()
  · exact fun _ u e => .inr (hE s u h hd e)

/-- A flush where a budget asks for one (R235). -/
theorem flushFirst_follows (full : Bool) : (if full then usbFlush s else .ok () s).Follows E (AnsweredTwin s0)
    (if full then usbFlush s.answered else .ok () s.answered) :=
  .ite (usbFlush_follows hE h) (.ok ⟨h, rfl⟩ ())

theorem usbEmit_follows (bytes : List Byte) (ds : List Descriptor) :
    (usbEmit bytes ds s).Follows E (AnsweredTwin s0) (usbEmit bytes ds s.answered) := by
  refine Res.Follows.bind (flushFirst_follows hE (h.setUsbHost { s.usbHost with run := none }) _) ?_
  rintro _ t _ ⟨ht, rfl⟩
  exact .ok ⟨ht.setUsbHost _, rfl⟩ ()

theorem byteArm_follows (i : Nat) (d : Byte) :
    (byteArm i d s).Follows E (AnsweredTwin s0) (byteArm i d s.answered) := by
  have hj : joinableRun s.answered.cfg s.answered.usbHost = joinableRun s.cfg s.usbHost := rfl
  unfold byteArm
  rw [hj]
  cases joinableRun s.cfg s.usbHost with
  | some r => exact .ok ⟨h.setUsbHost _, rfl⟩ ()
  | none =>
    refine Res.Follows.bind (flushFirst_follows hE h _) ?_
    rintro _ t _ ⟨ht, rfl⟩
    exact .ok ⟨ht.setUsbHost _, rfl⟩ ()

theorem tmsArm_follows (i : Nat) (m d : Byte) (bits : List Nat) :
    (tmsArm i m d bits s).Follows E (AnsweredTwin s0) (tmsArm i m d bits s.answered) := by
  induction bits generalizing s with
  | nil => exact .ok ⟨h, rfl⟩ ()
  | cons b bits ih =>
    refine Res.Follows.bind (usbEmit_follows hE h _ _) ?_
    rintro _ t _ ⟨ht, rfl⟩
    exact ih (ht.setUsbHost _)

theorem usbByte_follows (n : Nat) (tms tdi : List Byte) :
    (usbByte n tms tdi s).Follows E (AnsweredTwin s0) (usbByte n tms tdi s.answered) := by
  refine Res.Follows.bind
    (.ite (byteArm_follows hE h _ _) (.ite (usbEmit_follows hE h _ _) (tmsArm_follows hE h _ _ _ _))) ?_
  rintro _ t _ ⟨ht, rfl⟩
  exact .ok ⟨ht.setHost _, rfl⟩ ()

theorem usbLoop_follows (n : Nat) (tms tdi : List Byte) (fuel : Nat) :
    (usbLoop n tms tdi fuel s).Follows E (AnsweredTwin s0) (usbLoop n tms tdi fuel s.answered) := by
  induction fuel generalizing s with
  | zero => exact .ok ⟨h, rfl⟩ ()
  | succ fuel ih =>
    refine Res.Follows.ite (Res.Follows.bind (usbByte_follows hE h n tms tdi) ?_) (.ok ⟨h, rfl⟩ ())
    rintro _ t _ ⟨ht, rfl⟩
    exact ih ht

theorem usbShift_follows (n : Nat) (tms tdi : List Byte) :
    (usbShift n tms tdi s).Follows E (AnsweredTwin s0) (usbShift n tms tdi s.answered) := by
  refine Res.Follows.bind (usbLoop_follows hE ((h.setUsbHost _).setHost _) n tms tdi _) ?_
  rintro _ t _ ⟨ht, rfl⟩
  refine Res.Follows.bind (usbFlush_follows hE ht) ?_
  rintro _ t _ ⟨ht, rfl⟩
  exact .ok ⟨ht.setHost _, rfl⟩ _

end

/-! ### The transfer that does not go through -/

/-- A write transfer that fails ends the flush (R317 (e)). -/
theorem flushBreaks_of_failingWrite {s0 : State} (h : s0.env.writes.head? = some false) :
    FlushBreaks (· = .refused .usbTransferError) s0 := by
  rintro _ _ ⟨x, y, rfl⟩ hd -
  rw [usbFlush_of_desc hd, usbWrite_of_failing]
  · rfl
  · exact h

/-- Where the write goes through, the flush of a batch ends as its read does. -/
theorem flushBreaks_of_read {E : Host.Outcome State Fault Refusal → Prop} {s0 : State}
    (hwrites : s0.env.writes.head? ≠ some false)
    (hread : ∀ t k, t.env.usbAlive = s0.env.usbAlive → (usbRead s0.env.delivery k [] t).BreaksOff E) :
    FlushBreaks E s0 := by
  rintro _ _ ⟨x, y, rfl⟩ hd e
  rw [usbFlush_of_desc (by exact hd)] at e ⊢
  obtain ⟨_, _, ewrite, -⟩ := Res.bind_eq_ok.1 e
  obtain ⟨t, et⟩ :=
    usbWrite_of_answered (s := ((s0.setUsbHost x).setHost y).setUsbHost { x with run := none }) ewrite hwrites
  obtain ⟨_, _, _, ht⟩ := adapterMoved_of_usbWrite et
  have henv : t.env = { s0.env with writes := s0.env.writes.tail } := by rw [ht]; rfl
  have broken := hread t t.usbHost.desc.length (by rw [henv])
  rw [show s0.env.delivery = t.env.delivery by rw [henv]] at broken
  exact (congrArg (Res.BreaksOff E) (congrArg (Res.bind · _) et)).mpr (broken.bind _)

/-- The host is stuck in a read. -/
def StuckInRead (o : Host.Outcome State Fault Refusal) : Prop := ∃ t, o = .next t ∧ t.host.phase = .stuckRead

/-- Bytes that are never delivered leave the host stuck in the first read (R351). -/
theorem flushBreaks_of_silent {s0 : State} (hwrites : s0.env.writes.head? ≠ some false)
    (halive : s0.env.usbAlive = false) (hdel : s0.env.delivery = []) : FlushBreaks StuckInRead s0 := by
  refine flushBreaks_of_read hwrites fun t k ht => ?_
  rw [hdel, usbRead, if_neg (by simp [ht, halive])]
  exact ⟨_, rfl, rfl⟩

/-- A read transfer that fails ends the flush (R317 (e)). -/
theorem flushBreaks_of_failingRead {s0 : State} (hwrites : s0.env.writes.head? ≠ some false)
    (hdel : s0.env.delivery.head? = some .error) : FlushBreaks (· = .refused .usbTransferError) s0 := by
  refine flushBreaks_of_read hwrites fun t k _ => ?_
  obtain ⟨rest, hd⟩ := List.head?_eq_some_iff.1 hdel
  rw [hd, usbRead]
  rfl

/-! ### T.SHIFT and T.SET_CLOCK_DIVISOR over broken transfers (O34) -/

section
variable {E : Host.Outcome State Fault Refusal → Prop} {s u : State} {a : UsbAddress} {n : Nat} {tms tdi buf : List Byte}
  {bits : Bits}

/-- A shift of cycles that can be clocked must flush, or it would take no free values; so it ends as its first flush. -/
theorem usbShift_breaksOff (hE : FlushBreaks E s) (hh : s.handle = some (.usb a)) (hw : s.cfg.wellFormed = true)
    (hq : s.usb.cmdq = []) (hl : s.levelsAgree = true) (hn : 0 < n)
    (hu : clockAll (s.usbPoint s.usbHost.edge) (vectorOf n tms tdi) s = .ok bits u) :
    (usbShift n tms tdi s).BreaksOff E := by
  have ready : s.answered.usbReady := ⟨⟨a, hh⟩, hq, rfl, hl, rfl, nofun, nofun⟩
  have wire : SameWire (s.usbPoint s.usbHost.edge) s (s.usbPoint s.usbHost.edge) s.answered := ⟨rfl, rfl, rfl⟩
  obtain ⟨v, ev, -, hdraws⟩ := usbShift_captures (s := s.answered) hw ready (wire.clockAll hu)
  obtain ⟨_, -, ⟨_, _, rfl⟩, rfl⟩ | broken := usbShift_follows hE ⟨s.usbHost, s.host, rfl⟩ n tms tdi _ v ev
  · have none_drawn : s.draws = u.draws := hdraws
    rw [(clockAll_eq_ok hu).1, State.setTarget_draws, State.setDraws_draws, vectorOf_length] at none_drawn
    omega
  · exact broken

theorem shift_breaksOff (hE : FlushBreaks E s) (hh : s.handle = some (.usb a)) (hw : s.cfg.wellFormed = true)
    (hq : s.usb.cmdq = []) (hl : s.levelsAgree = true) (hn : 0 < n) (hbuf : buf.length = 2 * bytesFor n)
    (hu : clockAll (s.usbPoint s.usbHost.edge) (vectorOf n (buf.take (bytesFor n)) (buf.drop (bytesFor n))) s =
      .ok bits u) : (shift n buf s).BreaksOff E :=
  (congrArg (Res.BreaksOff E) (shift_of_usb hh hn hbuf)).mpr (usbShift_breaksOff hE hh hw hq hl hn hu)

/-- A part that leaves the host stuck in a read keeps the diagnostics and the result, and no step changes the state. -/
theorem Res.BreaksOff.hangs {x : Res (List Byte)} (h : x.BreaksOff StuckInRead) (hk : x.keeps s) :
    ∃ t, x.out giveCapture = .next t ∧ t.host.phase = .stuckRead ∧ t.diags = s.diags ∧ t.ret = s.ret ∧
      step t = .next t := by
  cases x with
  | ok cap t => exact h.elim
  | stuck t =>
    obtain ⟨_, ⟨⟩, hp⟩ := h
    obtain ⟨-, -, -, -, hret, hdiags, -⟩ := hk
    exact ⟨t, rfl, hp, hdiags, hret, step_of_stuck (.inr hp)⟩
  | fault f => obtain ⟨_, e, -⟩ := h; cases e
  | refused r => obtain ⟨_, e, -⟩ := h; cases e

end

theorem setClockDivisor_of_failingWrite {s : State} {a : UsbAddress} (hh : s.handle = some (.usb a))
    (h : s.env.writes.head? = some false) (v : Int) : setClockDivisor v s = .refused .usbTransferError := by
  rw [setClockDivisor, needHandle_eq_ok.2 ⟨hh, rfl⟩, Res.bind_ok]
  exact usbWrite_of_failing (s := s.setUsb { s.usb with div := BitVec.ofNat 16 (clampNat v s.cfg.usbDivMax) }) h _

/-- Settles O34: the shift ends at its first flush, in the read or with the transfer's error. -/
theorem undeliveredBytesHangTheHost : Obligations.UndeliveredBytesHangTheHost := by
  intro s u a n buf bits hh hw hq hl hn hbuf hu
  have ends {E} (hE : FlushBreaks E s) : (shift n buf s).BreaksOff E := shift_breaksOff hE hh hw hq hl hn hbuf hu
  refine ⟨fun halive hdel hwrites => ?silent, fun hfail => ⟨?shift, fun v => ?divisor⟩, fun herr hwrites => ?read⟩
  case silent =>
    have accepted : s.env.writes.head? ≠ some false := fun h => hwrites (List.mem_of_mem_head? h)
    exact (ends (flushBreaks_of_silent accepted halive hdel)).hangs (shift_keeps n buf s)
  case shift => exact (ends (flushBreaks_of_failingWrite hfail)).out giveCapture
  case divisor => exact congrArg (Res.out · giveDone) (setClockDivisor_of_failingWrite hh hfail v)
  case read => exact (ends (flushBreaks_of_failingRead hwrites herr)).out giveCapture

end Sys2Proof.Machine
end
